-- ==== Sys2Proof/Word.lean ====
section
/-! DEFINITION. The word, byte and field types of the machine (spec/00_scope.md R8, R9) and nothing else. -/

namespace Sys2Proof

/-- The machine word: 16 bits, the card's bit 0 the most significant (R8). -/
abbrev Word := BitVec 16

/-- A byte: 8 bits; the left (upper) byte of a word is its bits 0-7 (spec/20_memory.md R61). -/
abbrev Byte := BitVec 8

/-- A register number as a 4-bit field holds it (spec/30_encoding.md R101). -/
abbrev Reg := BitVec 4

/-- A 4-bit field that is no register number: BIT, C, D, L, U, CH, PR (spec/30_encoding.md R101). -/
abbrev Nibble := BitVec 4

end Sys2Proof
end

