-- ==== Sys2Proof/Config.lean ====
section
/-! DEFINITION. The parameters of spec/00_scope.md R12 that do not depend on the machine's state: switches with a chosen
value, and uninterpreted constants with no body for everything the spec leaves free. -/

namespace Sys2Proof

/-- Four condition-code values in the card's order N, Z, O, C (spec/10_state.md R27). -/
structure Codes where
  n : Bool
  z : Bool
  o : Bool
  c : Bool
  deriving DecidableEq, Repr, Inhabited

/-- What a floating-point parameter function returns: the result and the four codes (spec/47_floating.md R491). -/
structure FpResult (w : Nat) where
  value : BitVec w
  codes : Codes
  deriving DecidableEq, Repr, Inhabited

/-- The two values of `extract_polarity` (R12, D20). -/
inductive ExtractPolarity where
  | and
  | andNot
  deriving DecidableEq, Repr

/-- The two values of `byte_move_fill` (R12, D21). -/
inductive ByteMoveFill where
  | clear
  | keep
  deriving DecidableEq, Repr

/-- A match/mask pair for a row whose printed op code is unusable (spec/30_encoding.md R123). -/
structure RowCode where
  code : Word
  mask : Word
  deriving DecidableEq, Repr

/-- What Input Status brings from the environment: a word and four codes (spec/49_interrupt_io.md R485). -/
structure StatusInput where
  value : Word
  codes : Codes
  deriving DecidableEq, Repr, Inhabited

namespace Config

/-- `admit_tentative` (R7, R12): class T instructions execute. DESIGN CHOICE, unsafe: log 8. -/
def admitTentative : Bool := true

/-- `extract_polarity` (R12): the default, plain AND. DESIGN CHOICE, unsafe: log 9. -/
def extractPolarity : ExtractPolarity := .and

/-- `byte_move_fill` (R12): the default, clear. DESIGN CHOICE, unsafe: log 10. -/
def byteMoveFill : ByteMoveFill := .clear

/-- `PA_BITS` (R12, 16..32): how many bits of a register pair form an actual-memory address. DESIGN CHOICE: log 10. -/
def paBits : Nat := 32

/-- `cri_encoding` (R12, R123): absent, so no word decodes to CRI. Log 11. -/
def criEncoding : Option RowCode := none

/-- `sccc_encoding` (R12, R123): absent, so no word decodes to SCCC. Log 11. -/
def scccEncoding : Option RowCode := none

/-- A `draw` (R5): the `n`-th free value of width `w`. Uninterpreted: log 12. -/
opaque draw (w n : Nat) : BitVec w

/-- `Ch.lower` (R12, spec/10_state.md R30): the class of the bytes 61-7A. Uninterpreted: log 13. -/
opaque chLower (b : Byte) : Codes

/-- `Ch.high` (R12, spec/10_state.md R30): the class of the bytes 80-FF. Uninterpreted: log 13. -/
opaque chHigh (b : Byte) : Codes

/-- `FP.add32`, `FP.add48`, `FP.add64` (spec/47_floating.md R491), one for each width. Uninterpreted: log 18. -/
opaque fpAdd (w : Nat) (a b : BitVec w) : FpResult w

/-- `FP.sub32`, `FP.sub48`, `FP.sub64` (R491). Uninterpreted: log 18. -/
opaque fpSub (w : Nat) (a b : BitVec w) : FpResult w

/-- `FP.mul32`, `FP.mul48`, `FP.mul64` (R491). Uninterpreted: log 18. -/
opaque fpMul (w : Nat) (a b : BitVec w) : FpResult w

/-- `FP.div32`, `FP.div48`, `FP.div64` (R491). Uninterpreted: log 18. -/
opaque fpDiv (w : Nat) (a b : BitVec w) : FpResult w

/-- `FP.cvt_i32_to_f32` (R491, CDIE). Uninterpreted: log 18. -/
opaque fpFromInt32 (a : BitVec 32) : FpResult 32

/-- `FP.cvt_f32_to_i32` (R491, CFDI). Uninterpreted: log 18. -/
opaque fpToInt32 (a : BitVec 32) : FpResult 32

/-- `FP.cvt_f64_to_f32` (R491, COFF). Uninterpreted: log 18. -/
opaque fpNarrow64 (a : BitVec 64) : FpResult 32

/-- `Env.input_status(j, U)` (spec/60_exceptions.md R616): the environment's `n`-th answer. Uninterpreted: log 14. -/
opaque inputStatus (n : Nat) (j : BitVec 2) (u : Nibble) : StatusInput

/-- `Env.input_data(j, U)` (R616): the environment's `n`-th answer. Uninterpreted: log 14. -/
opaque inputData (n : Nat) (j : BitVec 2) (u : Nibble) : Word

end Config

end Sys2Proof
end

