-- ==== Sys2Proof/Machine/State.lean ====
section
/-! DEFINITION. The machine's state as plain data: everything spec/10_state.md R41 lists, the memory (spec/20_memory.md R60,
R89), and the model's own bookkeeping of the environment. The faults and refusals a step can end in. The state at reset. -/

namespace Sys2Proof.Machine

/-- General registers 1 to 15 of the current block (R20). There is no register 0 (R21). -/
structure Regs where
  r1 : Word
  r2 : Word
  r3 : Word
  r4 : Word
  r5 : Word
  r6 : Word
  r7 : Word
  r8 : Word
  r9 : Word
  r10 : Word
  r11 : Word
  r12 : Word
  r13 : Word
  r14 : Word
  r15 : Word
  deriving DecidableEq, Repr, Inhabited

/-- The Program Status word PS by fields (R26); they fill the word. -/
structure Psw where
  /-- IM, bits 0-2: the instruction map number (R33). -/
  im : BitVec 3
  /-- PV, bit 3: privileged (R32). -/
  pv : Bool
  /-- GRB, bits 4-7: the register block number (R34). -/
  grb : BitVec 4
  /-- OM, bits 8-10: the operand map number (R33). -/
  om : BitVec 3
  /-- OH, bit 11: the integer overflow history (R31). -/
  oh : Bool
  /-- N, bit 12 (R27). -/
  n : Bool
  /-- Z, bit 13 (R27). -/
  z : Bool
  /-- O, bit 14 (R27). -/
  o : Bool
  /-- C, bit 15 (R27). -/
  c : Bool
  deriving DecidableEq, Repr, Inhabited

/-- The run state (R40). -/
inductive RunState where
  | running
  | halted
  deriving DecidableEq, Repr, Inhabited

/-- A run of consecutive word addresses of the launch memory (spec/20_memory.md R89). -/
structure Region where
  base : Nat
  size : Nat
  deriving DecidableEq, Repr, Inhabited

/-- What the environment has received (spec/60_exceptions.md R616, R617). -/
inductive OutputEvent where
  /-- `Env.request_multiprocessor_interrupt()`, from RMI. -/
  | multiprocessorRequest
  /-- `Env.output_command(j, U, v)`, from OCI. -/
  | command (j : BitVec 2) (u : Nibble) (v : Word)
  /-- `Env.output_data(j, U, v)`, from ODI. -/
  | data (j : BitVec 2) (u : Nibble) (v : Word)
  deriving DecidableEq, Repr

/-- Memory as bytes: the left byte of word `a` at `2 * a`, its right byte at `2 * a + 1` (R60, R61). A byte that is not
listed holds no value (R89; log 6). -/
abbrev Memory := List Host.Cell

/-- The canonical form: addresses strictly rising, all inside the 65536 words of the address space (R60). -/
abbrev Memory.wf (m : Memory) : Prop := m.Pairwise (fun p q => p.1 < q.1) ∧ ∀ p ∈ m, p.1 < 131072

/-- The state of the machine. -/
structure State where
  /-- x[1] to x[15] (R20). -/
  regs : Regs
  /-- The program counter, a word address (R24). -/
  pc : Word
  /-- The Program Status word (R26). -/
  psw : Psw
  /-- The enable latches, level L in bit L from the left (R35). -/
  ie : Word
  /-- The active latches (R35). -/
  ia : Word
  /-- The request latches (R35). -/
  ir : Word
  /-- Running or halted (R40). -/
  run : RunState
  /-- The memory (R60). -/
  mem : Memory
  /-- The addresses that exist for the run (R89). -/
  launch : List Region
  /-- The model's own: how many free values have been set aside for draws and input so far (R5; log 12). -/
  draws : Nat
  /-- The model's own: an ExecutiveRequest the environment has not answered yet (R604; log 16). -/
  pending : Option (BitVec 8)
  /-- The model's own: the request latches the environment will set at the coming boundaries (R605; log 15). -/
  envRequests : List Word
  /-- The model's own: the events sent to the environment, the newest first (R616, R617; log 19). -/
  outputs : List OutputEvent
  deriving DecidableEq, Repr, Inhabited

/-- The ways a run ends with a report (R5). -/
inductive Fault where
  /-- A privileged instruction with PV = 0 (R602), raised by the 36 privileged meanings. The spec's own event: safe. -/
  | privilegeViolation
  /-- The word at pc matches no decodable row (R603), raised by the fetch. The spec's own event: safe. -/
  | unimplementedInstruction
  /-- `stuck`: an access outside the launch memory (R89), raised by every fetch, read and write. Safe. -/
  | outsideLaunchMemory
  /-- A step in the halted state (R655), raised by the step. Safe. -/
  | halted
  /-- The executive ended the run (R604), raised by the step after REX. Safe. -/
  | executiveEnded
  deriving DecidableEq, Repr

/-- The ways the model stops because the spec gives no meaning (R5 `refuse`). Every one is safe: the hardware may go on. -/
inductive Refusal where
  /-- Not modelled yet; raised by an arm of `exec` that has no meaning. -/
  | notModelled (mnemonic : String)
  /-- Register number 0 where a data register is named (R21 (c)); raised by every register operand. -/
  | registerZero
  /-- A register-multiple number that breaks its constraint (R22); raised by double, triple and quadruple operands. -/
  | registerMultiple
  /-- An odd R in an integer multiply or divide (R397-R408, D24); raised by those eight rows. -/
  | oddPair
  /-- X = 0 or 8..15 in the short-indexed, byte and branch modes (R69); raised by those operands. -/
  | indexRegister
  /-- The hop field 1000000b (R111); raised by the fifteen hops. -/
  | hopField
  /-- I = 1 on a floating-point memory row (R418 and its kin); raised by those rows. -/
  | floatingIndirect
  /-- A read of a launch memory word that holds no value (R89, D54); raised by every fetch and read. -/
  | unwrittenMemory
  /-- A class T row while `admit_tentative` is off (R7); raised by the class T meanings. -/
  | tentative
  /-- CAR or CIR with no active level (R483, D31); raised by those two. -/
  | noActiveLevel
  /-- A loaded PS that would change IM, GRB or OM (R23, R33, D58); raised by CAR, CIR and the environment's answers. -/
  | mapOrBlockChange
  /-- No InterruptEntry is given for the interrupt (R607); raised by taking an interrupt. -/
  | noInterruptEntry
  /-- An answer of the environment that breaks a condition the spec puts on it (R607), or is no state of the model (R60);
  raised by taking an interrupt and by the executive's turn. -/
  | environmentAnswer
  /-- PLM, PSM (R222, R223, D53). -/
  | stackDescriptor
  /-- LRS (R247, D49). -/
  | rotateAmount
  /-- CBMB, CBSB, CBXB (R293-R295, D49). -/
  | compareBitOperands
  /-- BLT (R350, D46). -/
  | branchTable
  /-- MPRD, MPMD, DVRD, DVMD (R398, R400, R404, R406, D24). -/
  | wideMultiplyDivide
  /-- EXR (R445, D41). -/
  | executedWord
  /-- TDR (R453, D40). -/
  | overflowTransfer
  /-- EVMO (R455, D34). -/
  | virtualMode
  /-- MRRB, both rows (R456, R457, D34). -/
  | contextFile
  /-- SCRB (R458, D34). -/
  | registerBlock
  /-- The map rows MABI, AMEM, DMEH, LIMP, LOMP, ZIMP, ZOMP, SIOM, SOOM, SZOM, LDVM, STVM (R459-R469, R471, D34). -/
  | mapImage
  /-- SPR, SGP, SLP, SUP (R473-R476, D34). -/
  | protectRegister
  /-- DMPI (R489, D42). -/
  | directMemoryProcessor
  deriving DecidableEq, Repr

/-- All fifteen registers zero (log 2). -/
def Regs.zero : Regs := ⟨0, 0, 0, 0, 0, 0, 0, 0, 0, 0, 0, 0, 0, 0, 0⟩

/-- The status word at reset: privileged, every other field zero (log 3). -/
def Psw.atReset : Psw := ⟨0, true, 0, 0, false, false, false, false, false⟩

/-- The machine at reset. The spec gives only `run` (R42); every other value is the model's choice (logs 1 to 6). -/
def State.reset : State where
  regs := Regs.zero
  pc := 0
  psw := Psw.atReset
  ie := 0
  ia := 0
  ir := 0
  run := .running
  mem := []
  launch := [⟨0, 65536⟩]
  draws := 0
  pending := none
  envRequests := []
  outputs := []

end Sys2Proof.Machine
end

