-- ==== Sys2Proof/Machine/Env.lean ====
section
/-! DEFINITION. The parameters of spec/00_scope.md R12 that take the whole state: the executive and the interrupt entry.
They have no body: a statement about the machine holds whatever they are. -/

namespace Sys2Proof.Machine

/-- `Env.executive(SN, state)` (spec/60_exceptions.md R604): the state in which the program goes on, or none where the
service ends the run. Uninterpreted: log 16. -/
opaque Config.executive (sn : BitVec 8) (s : State) : Option State

/-- `InterruptEntry(L, state)` (R607): the state in which the interrupt routine starts, or none where no entry is given.
Uninterpreted: log 17. -/
opaque Config.interruptEntry (level : BitVec 4) (s : State) : Option State

/-- Where an entry has left the interrupted program's PSD (R607 (c)): the pc and the PS recovered from its result.
Uninterpreted: log 17. -/
opaque Config.savedPsd (s : State) : Word × Word

end Sys2Proof.Machine
end

