-- ==== Sys2Proof/Machine/Ops.lean ====
section
/-! DEFINITION. The named operations over registers, memory, latches and the status word; taking an event and returning from
an interrupt. Every read and write of the state by an instruction goes through this file. -/

namespace Sys2Proof.Machine

/-- What an operation of the machine answers: a value, or the step's fault or refusal (R5). -/
abbrev Res (α : Type) := Host.Outcome α Fault Refusal

/-- One operation after another: nothing happens after a stop (R10). -/
def Res.bind {α β : Type} (x : Res α) (f : α → Res β) : Res β :=
  match x with
  | .next a => f a
  | .fault r => .fault r
  | .refused r => .refused r

/-! ### Registers -/

/-- How many words an operand has (spec/10_state.md R22). -/
inductive Width where
  | single
  | double
  | triple
  | quad
  deriving DecidableEq, Repr

/-- The width in bits (R22). -/
@[reducible] def Width.bits : Width → Nat
  | .single => 16
  | .double => 32
  | .triple => 48
  | .quad => 64

/-- How many words an operand of this width has (R22). -/
def Width.words : Width → Nat
  | .single => 1
  | .double => 2
  | .triple => 3
  | .quad => 4

/-- The register numbers an operand of this width may start at (R21 (c), R22). -/
def Width.admits (k : Width) (r : Reg) : Bool :=
  match k with
  | .single => r != 0#4
  | .double => r != 0#4 && !r.getLsbD 0
  | .triple | .quad => r == 4#4 || r == 8#4 || r == 12#4

/-- The word in one register. Number 0 names none (R21); every use of this function stands behind `Width.admits`. -/
def Regs.get (g : Regs) (r : Reg) : Word :=
  match r.toNat with
  | 1 => g.r1
  | 2 => g.r2
  | 3 => g.r3
  | 4 => g.r4
  | 5 => g.r5
  | 6 => g.r6
  | 7 => g.r7
  | 8 => g.r8
  | 9 => g.r9
  | 10 => g.r10
  | 11 => g.r11
  | 12 => g.r12
  | 13 => g.r13
  | 14 => g.r14
  | 15 => g.r15
  | _ => 0#16

/-- One register written; number 0 names none, and nothing is written (R21). -/
def Regs.set (g : Regs) (r : Reg) (v : Word) : Regs :=
  match r.toNat with
  | 1 => { g with r1 := v }
  | 2 => { g with r2 := v }
  | 3 => { g with r3 := v }
  | 4 => { g with r4 := v }
  | 5 => { g with r5 := v }
  | 6 => { g with r6 := v }
  | 7 => { g with r7 := v }
  | 8 => { g with r8 := v }
  | 9 => { g with r9 := v }
  | 10 => { g with r10 := v }
  | 11 => { g with r11 := v }
  | 12 => { g with r12 := v }
  | 13 => { g with r13 := v }
  | 14 => { g with r14 := v }
  | 15 => { g with r15 := v }
  | _ => g

/-- A register multiple as one value, the lowest-numbered register the most significant (R22). -/
def Regs.getMulti (g : Regs) (k : Width) (r : Reg) : BitVec k.bits :=
  match k with
  | .single => g.get r
  | .double => g.get r ++ g.get (r + 1)
  | .triple => g.get r ++ g.get (r + 1) ++ g.get (r + 2)
  | .quad => g.get r ++ g.get (r + 1) ++ g.get (r + 2) ++ g.get (r + 3)

/-- A register multiple written, the lowest-numbered register the most significant (R22). -/
def Regs.setMulti (g : Regs) (k : Width) (r : Reg) (v : BitVec k.bits) : Regs :=
  match k, v with
  | .single, v => g.set r v
  | .double, v => (g.set r (v.extractLsb' 16 16)).set (r + 1) (v.extractLsb' 0 16)
  | .triple, v =>
    ((g.set r (v.extractLsb' 32 16)).set (r + 1) (v.extractLsb' 16 16)).set (r + 2) (v.extractLsb' 0 16)
  | .quad, v =>
    (((g.set r (v.extractLsb' 48 16)).set (r + 1) (v.extractLsb' 32 16)).set (r + 2) (v.extractLsb' 16 16)).set
      (r + 3) (v.extractLsb' 0 16)

/-- Registers r, r+1, ... in ascending order, as many as asked for (D23). -/
def Regs.file (g : Regs) (r : Reg) : Nat → List Word
  | 0 => []
  | n + 1 => g.get r :: Regs.file g (r + 1) n

/-- Registers r, r+1, ... written in ascending order (D23). -/
def Regs.setFile (g : Regs) (r : Reg) : List Word → Regs
  | [] => g
  | v :: vs => Regs.setFile (g.set r v) (r + 1) vs

/-- How a register operand that is not admitted refuses (R21 (c), R22). -/
def badRegister (r : Reg) : Refusal := if r = 0#4 then .registerZero else .registerMultiple

/-- A register operand (R21 (c), R22). -/
def readReg (k : Width) (r : Reg) (s : State) : Res (BitVec k.bits) :=
  if k.admits r then .next (s.regs.getMulti k r) else .refused (badRegister r)

/-- The state with a register operand written. -/
def State.setReg (s : State) (k : Width) (r : Reg) (v : BitVec k.bits) : State :=
  { s with regs := s.regs.setMulti k r v }

/-! ### Bits and latches -/

/-- `bitmask(BIT)`: the word with a 1 in bit BIT only, bit 0 the leftmost (spec/20_memory.md R71). -/
def bitmask (n : Nibble) : Word := 0x8000#16 >>> n.toNat

/-- The latch of a level in a word of sixteen (spec/10_state.md R35). -/
def latch (w : Word) (level : BitVec 4) : Bool := w &&& bitmask level != 0#16

/-- One latch set (R35). -/
def setLatch (w : Word) (level : BitVec 4) : Word := w ||| bitmask level

/-- One latch reset (R35). -/
def resetLatch (w : Word) (level : BitVec 4) : Word := w &&& ~~~bitmask level

/-- The sixteen levels, the highest priority first (spec/60_exceptions.md R606). -/
def levels : List (BitVec 4) :=
  [0#4, 1#4, 2#4, 3#4, 4#4, 5#4, 6#4, 7#4, 8#4, 9#4, 10#4, 11#4, 12#4, 13#4, 14#4, 15#4]

/-! ### The status word -/

/-- PS as a word (R26). -/
def Psw.toWord (p : Psw) : Word :=
  p.im ++ BitVec.ofBool p.pv ++ p.grb ++ p.om ++ BitVec.ofBool p.oh ++ BitVec.ofBool p.n ++ BitVec.ofBool p.z
    ++ BitVec.ofBool p.o ++ BitVec.ofBool p.c

/-- PS from a word (R26). -/
def Psw.ofWord (w : Word) : Psw where
  im := w.extractLsb' 13 3
  pv := w.getLsbD 12
  grb := w.extractLsb' 8 4
  om := w.extractLsb' 5 3
  oh := w.getLsbD 4
  n := w.getLsbD 3
  z := w.getLsbD 2
  o := w.getLsbD 1
  c := w.getLsbD 0

/-- The four codes as a word, in bits 12-15 (R27, LCCC's R449). -/
def Psw.codesWord (p : Psw) : Word :=
  0#12 ++ BitVec.ofBool p.n ++ BitVec.ofBool p.z ++ BitVec.ofBool p.o ++ BitVec.ofBool p.c

/-- Two status words name the same maps and the same register block (R23, R33, D58). -/
def Psw.sameSpace (p q : Psw) : Bool := p.im == q.im && p.grb == q.grb && p.om == q.om

/-! ### Memory -/

/-- The byte at a byte address; none where nothing has been written (R89). -/
def Memory.read (m : Memory) (a : Nat) : Option Byte :=
  match m with
  | [] => none
  | c :: m => if a = c.1 then some c.2 else Memory.read m a

/-- One byte written, keeping the addresses strictly rising (R60). -/
def Memory.write (m : Memory) (a : Nat) (v : Byte) : Memory :=
  match m with
  | [] => [(a, v)]
  | c :: m => if a < c.1 then (a, v) :: c :: m else if a = c.1 then (a, v) :: m else c :: Memory.write m a v

/-- A word of memory: its left byte is at the even byte address (R61). -/
def Memory.readWord (m : Memory) (a : Word) : Option Word :=
  match m.read (2 * a.toNat), m.read (2 * a.toNat + 1) with
  | some l, some r => some (l ++ r)
  | _, _ => none

/-- A word of memory written, both bytes (R61, R77). -/
def Memory.writeWord (m : Memory) (a : Word) (v : Word) : Memory :=
  (m.write (2 * a.toNat) (v.extractLsb' 8 8)).write (2 * a.toNat + 1) (v.extractLsb' 0 8)

/-- Consecutive words written, addresses modulo 2^16 (R75). -/
def Memory.writeWords (m : Memory) (a : Word) : List Word → Memory
  | [] => m
  | v :: vs => Memory.writeWords (m.writeWord a v) (a + 1) vs

/-- The address exists for the run (R89). -/
def State.launched (s : State) (a : Word) : Bool :=
  s.launch.any fun g => decide (g.base ≤ a.toNat) && decide (a.toNat < g.base + g.size)

/-- `MemRead(a, 1)` (R10, R60, R89). -/
def loadWord (a : Word) (s : State) : Res Word :=
  if s.launched a then
    match s.mem.readWord a with
    | some v => .next v
    | none => .refused .unwrittenMemory
  else .fault .outsideLaunchMemory

/-- `MemWrite(a, 1, v)` (R10, R60, R89). -/
def storeWord (a : Word) (v : Word) (s : State) : Res State :=
  if s.launched a then .next { s with mem := s.mem.writeWord a v } else .fault .outsideLaunchMemory

/-- Consecutive words, addresses modulo 2^16 (R75, R76). -/
def loadWords (a : Word) : Nat → State → Res (List Word)
  | 0, _ => .next []
  | n + 1, s => Res.bind (loadWord a s) fun v => Res.bind (loadWords (a + 1) n s) fun vs => .next (v :: vs)

/-- Consecutive words written in ascending order (R75, R77). -/
def storeWords (a : Word) : List Word → State → Res State
  | [], s => .next s
  | v :: vs, s => Res.bind (storeWord a v s) fun s => storeWords (a + 1) vs s

/-- `MemRead(a, n)`: a multi-word operand, the word at `a` the most significant (R75). -/
def loadMulti (k : Width) (a : Word) (s : State) : Res (BitVec k.bits) :=
  match k with
  | .single => loadWord a s
  | .double => Res.bind (loadWord a s) fun v0 => Res.bind (loadWord (a + 1) s) fun v1 => .next (v0 ++ v1)
  | .triple => Res.bind (loadWord a s) fun v0 => Res.bind (loadWord (a + 1) s) fun v1 =>
      Res.bind (loadWord (a + 2) s) fun v2 => .next (v0 ++ v1 ++ v2)
  | .quad => Res.bind (loadWord a s) fun v0 => Res.bind (loadWord (a + 1) s) fun v1 =>
      Res.bind (loadWord (a + 2) s) fun v2 => Res.bind (loadWord (a + 3) s) fun v3 => .next (v0 ++ v1 ++ v2 ++ v3)

/-- The words of a multi-word operand, the most significant first (R75). -/
def wordsOf (k : Width) (v : BitVec k.bits) : List Word :=
  match k, v with
  | .single, v => [v]
  | .double, v => [v.extractLsb' 16 16, v.extractLsb' 0 16]
  | .triple, v => [v.extractLsb' 32 16, v.extractLsb' 16 16, v.extractLsb' 0 16]
  | .quad, v => [v.extractLsb' 48 16, v.extractLsb' 32 16, v.extractLsb' 16 16, v.extractLsb' 0 16]

/-- `MemWrite(a, n, v)`: a multi-word operand written (R75). -/
def storeMulti (k : Width) (a : Word) (v : BitVec k.bits) (s : State) : Res State := storeWords a (wordsOf k v) s

/-- The word address an actual-memory address reaches: its low PA_BITS bits, where they lie below 2^16 (R87). -/
def actualAddress (pa : BitVec 32) : Option Word :=
  if pa.toNat % 2 ^ Config.paBits < 65536 then some (BitVec.ofNat 16 (pa.toNat % 2 ^ Config.paBits)) else none

/-- `PhysRead(pa)` (R87). -/
def physRead (pa : BitVec 32) (s : State) : Res Word :=
  match actualAddress pa with
  | some a => loadWord a s
  | none => .fault .outsideLaunchMemory

/-- `PhysWrite(pa, v)` (R87). -/
def physWrite (pa : BitVec 32) (v : Word) (s : State) : Res State :=
  match actualAddress pa with
  | some a => storeWord a v s
  | none => .fault .outsideLaunchMemory

/-! ### Free values -/

/-- The `i`-th one-bit draw of this step (R5; log 12). -/
def State.drawnBit (s : State) (i : Nat) : Bool := (Config.draw 1 (s.draws + i)).getLsbD 0

/-- The draws of this step are used up; eight numbers are set aside for each step that draws (log 12). -/
def State.drew (s : State) : State := { s with draws := s.draws + 8 }

/-! ### Events -/

/-- The four events (spec/60_exceptions.md R601). -/
inductive Event where
  | privilegeViolation
  | unimplementedInstruction
  | executiveRequest (sn : BitVec 8)
  | interrupt (level : BitVec 4)
  deriving DecidableEq, Repr

/-- An answer of the environment, with the model's own bookkeeping as it stood (logs 16, 17). -/
def State.adopt (s answer : State) : State :=
  { answer with
    launch := s.launch
    draws := s.draws
    pending := none
    envRequests := s.envRequests
    outputs := s.outputs }

/-- An answer of the environment as the next state: its memory is a memory (R60), and it names the maps and the register
block in force (R23, R33). -/
def acceptAnswer (s answer : State) : Res State :=
  if answer.mem.wf then
    if s.psw.sameSpace answer.psw then .next (s.adopt answer) else .refused .mapOrBlockChange
  else .refused .environmentAnswer

/-- The conditions R607 puts on an entry at `level`: (a) its active latch is set, (b) no latch of another level changes,
(c) the interrupted program's PSD is recoverable. -/
def entryKept (level : BitVec 4) (s t : State) : Bool :=
  latch t.ia level
    && (resetLatch t.ia level == resetLatch s.ia level)
    && (resetLatch t.ie level == resetLatch s.ie level)
    && (resetLatch t.ir level == resetLatch s.ir level)
    && (Config.savedPsd t == (s.pc, s.psw.toWord))

/-- Taking the interrupt at `level` (R606, R607). -/
def enterInterrupt (level : BitVec 4) (s : State) : Res State :=
  match Config.interruptEntry level s with
  | none => .refused .noInterruptEntry
  | some answer => Res.bind (acceptAnswer s answer) fun t =>
      if entryKept level s t then .next t else .refused .environmentAnswer

/-- Taking an event, the one operation for all four (R601): a privilege violation and an unimplemented instruction end the run
with the state unchanged (R602, R603); an executive request leaves pc at the word after REX and waits for the executive's
answer (R604); an interrupt goes to the entry of its level (R607). -/
def raiseEvent (e : Event) (s : State) : Res State :=
  match e with
  | .privilegeViolation => .fault .privilegeViolation
  | .unimplementedInstruction => .fault .unimplementedInstruction
  | .executiveRequest sn => .next { s with pc := s.pc + 1, pending := some sn }
  | .interrupt level => enterInterrupt level s

/-- The executive answers the request that is waiting (R604). -/
def executiveTurn (sn : BitVec 8) (s : State) : Res State :=
  match Config.executive sn s with
  | none => .fault .executiveEnded
  | some answer => acceptAnswer s answer

/-- At an instruction boundary the environment sets request latches: `IR <- IR OR e` (R605). The start of a run counts as a
boundary: log 29. -/
def takeRequests (s : State) : State :=
  match s.envRequests with
  | [] => s
  | e :: es => { s with ir := s.ir ||| e, envRequests := es }

/-- The level is requested and enabled, and neither it nor a level of higher priority is active (R606). -/
def recognisable (s : State) (level : BitVec 4) : Bool :=
  latch s.ir level && latch s.ie level && levels.all fun k => !(decide (k ≤ level) && latch s.ia k)

/-- The interrupt to take at an instruction boundary, the lowest-numbered level first (R606, R609). -/
def recognise (s : State) : Option (BitVec 4) := levels.find? (recognisable s)

/-! ### Gates -/

/-- A privileged instruction: with PV = 0 it raises PrivilegeViolation before any other effect or refusal (R602). -/
def privileged (s : State) (x : Res State) : Res State :=
  if s.psw.pv then x else raiseEvent .privilegeViolation s

/-- A class T instruction: refused while `admit_tentative` is off (spec/00_scope.md R7). -/
def tentative (x : Res State) : Res State :=
  if Config.admitTentative then x else .refused .tentative

/-! ### Return from interrupt -/

/-- The level being served: the lowest-numbered active one (R608, D31). -/
def lowestActive (s : State) : Option (BitVec 4) := levels.find? (latch s.ia)

/-- Return from interrupt (R608, R483, R484): the level being served is left, its active latch (and for CIR its request latch)
is reset, and the PSD is loaded from the pair, PR from the even register and PS from the odd. -/
def returnFromInterrupt (clearRequest : Bool) (r : Reg) (s : State) : Res State :=
  privileged s <| tentative <| Res.bind (readReg .double r s) fun psd =>
    match lowestActive s with
    | none => .refused .noActiveLevel
    | some level =>
      let ps := Psw.ofWord (psd.extractLsb' 0 16)
      if s.psw.sameSpace ps then
        .next { s with
          ia := resetLatch s.ia level
          ir := if clearRequest then resetLatch s.ir level else s.ir
          pc := psd.extractLsb' 16 16
          psw := ps }
      else .refused .mapOrBlockChange

end Sys2Proof.Machine
end

