-- ==== Sys2Proof/Machine/Flags.lean ====
section
/-! DEFINITION. The condition codes: the adder and its flags (spec/10_state.md R29), the character classes (R30), the overflow
history (R31), the drawn codes (R28), the branch conditions (R43), and the arithmetic and logic of the two-operand rows. -/

namespace Sys2Proof.Machine

/-- What the adder returns: result, carry out, signed overflow (R29). -/
structure Sum (w : Nat) where
  result : BitVec w
  carry : Bool
  overflow : Bool
  deriving DecidableEq, Repr

/-- `add_W(a, b, cin)` (R29). -/
def adder {w : Nat} (a b : BitVec w) (cin : Bool) : Sum w :=
  let total := a.toNat + b.toNat + cin.toNat
  let r := BitVec.ofNat w total
  ⟨r, decide (2 ^ w ≤ total), a.msb == b.msb && r.msb != a.msb⟩

/-- Subtraction a - b: the subtrahend complemented and a carry injected, so carry 1 means no borrow (R29). -/
def subtract {w : Nat} (a b : BitVec w) : Sum w := adder a (~~~b) true

/-- `classify(c)`: the class of a character, as codes (R30). -/
def classify (c : Byte) : Codes :=
  if 0x28#8 ≤ c ∧ c ≤ 0x2F#8 then ⟨true, c.getLsbD 2, c.getLsbD 1, c.getLsbD 0⟩
  else if c = 0x20#8 then ⟨false, false, true, true⟩
  else if 0x30#8 ≤ c ∧ c ≤ 0x39#8 then ⟨false, true, false, true⟩
  else if 0x41#8 ≤ c ∧ c ≤ 0x5A#8 then ⟨false, false, false, false⟩
  else if 0x61#8 ≤ c ∧ c ≤ 0x7A#8 then Config.chLower c
  else if 0x80#8 ≤ c then Config.chHigh c
  else ⟨false, false, false, true⟩

/-- The four codes written, OH left as it is (R28, R491, R452). -/
def State.setCodes (s : State) (k : Codes) : State :=
  { s with psw := { s.psw with n := k.n, z := k.z, o := k.o, c := k.c } }

/-- "ZN": N and Z from a result, O and C left as they are (R28, R29). -/
def State.setZN {w : Nat} (s : State) (r : BitVec w) : State :=
  { s with psw := { s.psw with n := r.msb, z := r == 0#w } }

/-- "ZNCO" of the adder: the four codes, and OH set where O is (R29, R31). -/
def State.setSum {w : Nat} (s : State) (x : Sum w) : State :=
  { s with psw := { s.psw with
      n := x.result.msb, z := x.result == 0#w, o := x.overflow, c := x.carry, oh := s.psw.oh || x.overflow } }

/-- "ZNO" of a negation: N, Z and O, and OH set where O is; C left as it is (R248, R31; log 26). -/
def State.setZNO {w : Nat} (s : State) (x : Sum w) : State :=
  { s with psw := { s.psw with
      n := x.result.msb, z := x.result == 0#w, o := x.overflow, oh := s.psw.oh || x.overflow } }

/-- "ZNCO" with N and Z from a result, and O and C drawn: OH may become 1 and is never cleared (R28, R31, D10). -/
def State.setZNDrawn {w : Nat} (s : State) (r : BitVec w) : State :=
  State.drew { s with psw := { s.psw with
      n := r.msb, z := r == 0#w, o := s.drawnBit 0, c := s.drawnBit 1, oh := s.psw.oh || s.drawnBit 2 } }

/-- "ZNCO" of a test bit: Z tells whether the bit is 0, the other three are drawn (R306, D10, R31). -/
def State.setTested {w : Nat} (s : State) (t : BitVec w) : State :=
  State.drew { s with psw := { s.psw with
      n := s.drawnBit 3, z := t == 0#w, o := s.drawnBit 0, c := s.drawnBit 1, oh := s.psw.oh || s.drawnBit 2 } }

/-- "ZNCO" with no formula for any code: all four drawn (R226, R227, D10, R31). -/
def State.setAllDrawn (s : State) : State :=
  State.drew { s with psw := { s.psw with
      n := s.drawnBit 3, z := s.drawnBit 4, o := s.drawnBit 0, c := s.drawnBit 1, oh := s.psw.oh || s.drawnBit 2 } }

/-- "ZNCO" as a device reports it: the four codes from the environment, which are draws, so OH may become 1 and is never
cleared (R485, R28, R31; log 14). -/
def State.setReported (s : State) (k : Codes) : State :=
  State.drew { s with psw := { s.psw with n := k.n, z := k.z, o := k.o, c := k.c, oh := s.psw.oh || s.drawnBit 2 } }

/-- The conditions of the branch families (R43), by their condition number 0 to 6. -/
inductive Condition where
  | n
  | z
  | o
  | c
  | less
  | lessEqual
  | higher
  deriving DecidableEq, Repr

/-- `cond(k)` (R43). -/
def Psw.cond (p : Psw) : Condition → Bool
  | .n => p.n
  | .z => p.z
  | .o => p.o
  | .c => p.c
  | .less => p.n != p.o
  | .lessEqual => p.z || (p.n != p.o)
  | .higher => p.c && !p.z

/-- What the two-operand rows compute from the first operand `a` (destination register or memory word) and the second `b`. -/
inductive Alu where
  /-- Load: b, no code written (R203). -/
  | copy
  /-- Transfer: b, "ZN" (R231, R200). -/
  | transfer
  /-- Add (R365, R373). -/
  | add
  /-- Subtract; compare, where the result is discarded (R387, R389, R296). -/
  | subtract
  /-- Extract (AND), by `extract_polarity` (R258, D20). -/
  | extract
  /-- OR (R275). -/
  | inclusiveOr
  /-- Exclusive OR (R286). -/
  | exclusiveOr
  /-- Zero Bit: b is the bit's mask; no code written (R250). -/
  | zeroBit
  /-- OR Bit (R270). -/
  | setBit
  /-- Exclusive OR Bit (R284). -/
  | flipBit
  /-- Transfer One's Complement (R292). -/
  | complement
  /-- Transfer Two's Complement (R409). -/
  | negate
  /-- Generate Mask (R248). -/
  | generateMask
  /-- Test Register, any one's compare; the result is discarded (R314). -/
  | testOnes
  /-- Test Bit; the result is discarded (R306). -/
  | testBit
  deriving DecidableEq, Repr

/-- The result of an operation (the rules named at `Alu`). -/
def Alu.result {w : Nat} (op : Alu) (a b : BitVec w) : BitVec w :=
  match op with
  | .copy | .transfer => b
  | .add => (adder a b false).result
  | .subtract => (Machine.subtract a b).result
  | .extract => match Config.extractPolarity with
    | .and => a &&& b
    | .andNot => a &&& ~~~b
  | .inclusiveOr | .setBit => a ||| b
  | .exclusiveOr | .flipBit => a ^^^ b
  | .zeroBit => a &&& ~~~b
  | .complement => ~~~b
  | .negate | .generateMask => (Machine.subtract 0#w b).result
  | .testOnes | .testBit => a &&& b

/-- The condition codes of an operation (the rules named at `Alu`). -/
def Alu.flags {w : Nat} (op : Alu) (a b : BitVec w) (s : State) : State :=
  match op with
  | .copy | .zeroBit => s
  | .transfer | .extract | .inclusiveOr | .exclusiveOr | .complement | .testOnes => s.setZN (op.result a b)
  | .add => s.setSum (adder a b false)
  | .subtract => s.setSum (Machine.subtract a b)
  | .negate => s.setSum (Machine.subtract 0#w b)
  | .generateMask => s.setZNO (Machine.subtract 0#w b)
  | .setBit | .flipBit => s.setZNDrawn (op.result a b)
  | .testBit => s.setTested (op.result a b)

end Sys2Proof.Machine
end

