-- ==== Sys2Proof/Syntax.lean ====
section
/-! DEFINITION. The instruction set as syntax: one constructor for each row of spec/opcode_table.json, its operands the fields
of the instruction words (spec/30_encoding.md R100-R119). Register numbers are the numbers after a shared sub-operation
bit has been cleared (R116). -/

namespace Sys2Proof

/-- The operands of the long memory format: the indirect bit I (bit 12), the index field X (bits 13-15, 0 for none) and the
address word A (spec/30_encoding.md R106). -/
structure LongAddress where
  ind : Bool
  x : BitVec 3
  a : Word
  deriving DecidableEq, Repr

/-- The instructions of the card. -/
inductive Instr where
  /-- R200: `LBR,R,BIT`. -/
  | lbr (r : Reg) (n : Nibble)
  /-- R201: `LBRB,R,BIT B`. -/
  | lbrb (r : Reg) (n : Nibble) (b : Word)
  /-- R202: `LBX,R,X`. -/
  | lbx (r x : Reg)
  /-- R203: `LDM*,R,X A`. -/
  | ldm (r : Reg) (m : LongAddress)
  /-- R204: `LDMD*,RP,X A`. -/
  | ldmd (r : Reg) (m : LongAddress)
  /-- R205: `LDT,R V`. -/
  | ldt (r : Reg) (v : Word)
  /-- R206: `LDS,R,D`. -/
  | lds (r : Reg) (d : Nibble)
  /-- R207: `LDX,R,X`. -/
  | ldx (r x : Reg)
  /-- R208: `LDXD,RP,X`. -/
  | ldxd (r x : Reg)
  /-- R209: `LFM*,R,X A`. -/
  | lfm (r : Reg) (m : LongAddress)
  /-- R210: `LFS,R,D`. -/
  | lfs (r : Reg) (d : Nibble)
  /-- R211: `LFX,R,X`. -/
  | lfx (r x : Reg)
  /-- R212: `SBX,R,X`. -/
  | sbx (r x : Reg)
  /-- R213: `STM*,R,X A`. -/
  | stm (r : Reg) (m : LongAddress)
  /-- R214: `STMD*,RP,X A`. -/
  | stmd (r : Reg) (m : LongAddress)
  /-- R215: `STI,R V`. -/
  | sti (r : Reg) (v : Word)
  /-- R216: `STS,R,D`. -/
  | sts (r : Reg) (d : Nibble)
  /-- R217: `STX,R,X`. -/
  | stx (r x : Reg)
  /-- R218: `STXD,RP,X`. -/
  | stxd (r x : Reg)
  /-- R219: `SFM*,R,X A`. -/
  | sfm (r : Reg) (m : LongAddress)
  /-- R220: `SFS,R,D`. -/
  | sfs (r : Reg) (d : Nibble)
  /-- R221: `SFX,R,X`. -/
  | sfx (r x : Reg)
  /-- R222: `PLM*,R,X A,NR,NW`. -/
  | plm (r : Reg) (m : LongAddress) (counts : Word)
  /-- R223: `PSM*,R,X A,NR,NW`. -/
  | psm (r : Reg) (m : LongAddress) (counts : Word)
  /-- R224: `MLR,R,S`. -/
  | mlr (r q : Reg)
  /-- R225: `MBR,R,S`. -/
  | mbr (r q : Reg)
  /-- R226: `MUR,R,S`. -/
  | mur (r q : Reg)
  /-- R227: `MBL,R,S`. -/
  | mbl (r q : Reg)
  /-- R228: `IBR,R,S`. -/
  | ibr (r q : Reg)
  /-- R229: `IRM*,R,X A`. -/
  | irm (r : Reg) (m : LongAddress)
  /-- R230: `IRR,R,S`. -/
  | irr (r q : Reg)
  /-- R231: `TRR,R,S`. -/
  | trr (r q : Reg)
  /-- R232: `TRRB,R,S B`. -/
  | trrb (r q : Reg) (b : Word)
  /-- R233: `TRRD,RP,SP`. -/
  | trrd (r q : Reg)
  /-- R234: `TRRQ,RQ,SQ`. -/
  | trrq (r q : Reg)
  /-- R235: `RAS,R,C`. -/
  | ras (r : Reg) (c : Nibble)
  /-- R236: `RAD,RP,C`. -/
  | rad (r : Reg) (c : Nibble)
  /-- R237: `RAQ,RQ,C`. -/
  | raq (r : Reg) (c : Nibble)
  /-- R238: `LAS,R,C`. -/
  | las (r : Reg) (c : Nibble)
  /-- R239: `LAD,RP,C`. -/
  | lad (r : Reg) (c : Nibble)
  /-- R240: `LAQ,RQ,C`. -/
  | laq (r : Reg) (c : Nibble)
  /-- R241: `RLS,R,C`. -/
  | rls (r : Reg) (c : Nibble)
  /-- R242: `RLD,RP,C`. -/
  | rld (r : Reg) (c : Nibble)
  /-- R243: `RLQ,RQ,C`. -/
  | rlq (r : Reg) (c : Nibble)
  /-- R244: `LLS,R,C`. -/
  | lls (r : Reg) (c : Nibble)
  /-- R245: `LLD,RP,C`. -/
  | lld (r : Reg) (c : Nibble)
  /-- R246: `LLQ,RQ,C`. -/
  | llq (r : Reg) (c : Nibble)
  /-- R247: `LRS,R,S`. -/
  | lrs (r q : Reg)
  /-- R248: `GMR,R,BIT`. -/
  | gmr (r : Reg) (n : Nibble)
  /-- R249: `GMRB,R,BIT B`. -/
  | gmrb (r : Reg) (n : Nibble) (b : Word)
  /-- R250: `ZBR,R,BIT`. -/
  | zbr (r : Reg) (n : Nibble)
  /-- R251: `ZBRB,R,BIT B`. -/
  | zbrb (r : Reg) (n : Nibble) (b : Word)
  /-- R252: `ZBMM*,BIT,X A`. -/
  | zbmm (n : Nibble) (m : LongAddress)
  /-- R253: `ZMMB*,BIT,X A,B`. -/
  | zmmb (n : Nibble) (m : LongAddress) (b : Word)
  /-- R254: `ZBSM,BIT,D`. -/
  | zbsm (n d : Nibble)
  /-- R255: `ZBSB,BIT,D B`. -/
  | zbsb (n d : Nibble) (b : Word)
  /-- R256: `ZBXM,BIT,X`. -/
  | zbxm (n : Nibble) (x : Reg)
  /-- R257: `ZBXB,BIT,X B`. -/
  | zbxb (n : Nibble) (x : Reg) (b : Word)
  /-- R258: `ETR,R,S`. -/
  | etr (r q : Reg)
  /-- R259: `ETRB,R,S B`. -/
  | etrb (r q : Reg) (b : Word)
  /-- R260: `ETMM*,R,X A`. -/
  | etmm (r : Reg) (m : LongAddress)
  /-- R261: `ETMB*,R,X A,B`. -/
  | etmb (r : Reg) (m : LongAddress) (b : Word)
  /-- R262: `ETSM,R,D`. -/
  | etsm (r : Reg) (d : Nibble)
  /-- R263: `ETSB,R,D B`. -/
  | etsb (r : Reg) (d : Nibble) (b : Word)
  /-- R264: `ETXM,R,X`. -/
  | etxm (r x : Reg)
  /-- R265: `ETXB,R,X B`. -/
  | etxb (r x : Reg) (b : Word)
  /-- R266: `ETM*,R,X A`. -/
  | etm (r : Reg) (m : LongAddress)
  /-- R267: `ETI,R V`. -/
  | eti (r : Reg) (v : Word)
  /-- R268: `ETS,R,D`. -/
  | ets (r : Reg) (d : Nibble)
  /-- R269: `ETX,R,X`. -/
  | etx (r x : Reg)
  /-- R270: `OBR,R,BIT`. -/
  | obr (r : Reg) (n : Nibble)
  /-- R271: `OBRB,R,BIT B`. -/
  | obrb (r : Reg) (n : Nibble) (b : Word)
  /-- R272: `OBMM*,BIT,X A`. -/
  | obmm (n : Nibble) (m : LongAddress)
  /-- R273: `OBSM,BIT,D`. -/
  | obsm (n d : Nibble)
  /-- R274: `OBXM,BIT,X`. -/
  | obxm (n : Nibble) (x : Reg)
  /-- R275: `ORR,R,S`. -/
  | orr (r q : Reg)
  /-- R276: `ORRB,R,S B`. -/
  | orrb (r q : Reg) (b : Word)
  /-- R277: `ORMM*,R,X A`. -/
  | ormm (r : Reg) (m : LongAddress)
  /-- R278: `ORSM,R,D`. -/
  | orsm (r : Reg) (d : Nibble)
  /-- R279: `ORXM,R,X`. -/
  | orxm (r x : Reg)
  /-- R280: `ORM*,R,X A`. -/
  | orm (r : Reg) (m : LongAddress)
  /-- R281: `ORI,R V`. -/
  | ori (r : Reg) (v : Word)
  /-- R282: `ORS,R,D`. -/
  | ors (r : Reg) (d : Nibble)
  /-- R283: `ORX,R,X`. -/
  | orx (r x : Reg)
  /-- R284: `XBR,R,BIT`. -/
  | xbr (r : Reg) (n : Nibble)
  /-- R285: `XBRB,R,BIT B`. -/
  | xbrb (r : Reg) (n : Nibble) (b : Word)
  /-- R286: `XOR,R,S`. -/
  | xor (r q : Reg)
  /-- R287: `XORB,R,S B`. -/
  | xorb (r q : Reg) (b : Word)
  /-- R288: `XOM*,R,X A`. -/
  | xom (r : Reg) (m : LongAddress)
  /-- R289: `XOI,R V`. -/
  | xoi (r : Reg) (v : Word)
  /-- R290: `XOS,R,D`. -/
  | xos (r : Reg) (d : Nibble)
  /-- R291: `XOX,R,X`. -/
  | xox (r x : Reg)
  /-- R292: `TOR,R,S`. -/
  | tor (r q : Reg)
  /-- R293: `CBMB*,BIT,X A,B,B`. -/
  | cbmb (n : Nibble) (m : LongAddress) (b1 b2 : Word)
  /-- R294: `CBSB,BIT,D B,B`. -/
  | cbsb (n d : Nibble) (b1 b2 : Word)
  /-- R295: `CBXB,BIT,X B,B`. -/
  | cbxb (n : Nibble) (x : Reg) (b1 b2 : Word)
  /-- R296: `CRR,R,S`. -/
  | crr (r q : Reg)
  /-- R297: `CRRD,RP,SP`. -/
  | crrd (r q : Reg)
  /-- R298: `CRM*,R,X A`. -/
  | crm (r : Reg) (m : LongAddress)
  /-- R299: `CRMB*,R,X A,B,B`. -/
  | crmb (r : Reg) (m : LongAddress) (b1 b2 : Word)
  /-- R300: `CRMD*,RP,X A`. -/
  | crmd (r : Reg) (m : LongAddress)
  /-- R301: `CRI,R V`. -/
  | cri (r : Reg) (v : Word)
  /-- R302: `CRS,R,D`. -/
  | crs (r : Reg) (d : Nibble)
  /-- R303: `CRSB,R,D B,B`. -/
  | crsb (r : Reg) (d : Nibble) (b1 b2 : Word)
  /-- R304: `CRX,R,X`. -/
  | crx (r x : Reg)
  /-- R305: `CRXB,R,X B,B`. -/
  | crxb (r x : Reg) (b1 b2 : Word)
  /-- R306: `TBR,R,BIT`. -/
  | tbr (r : Reg) (n : Nibble)
  /-- R307: `TBRB,R,BIT B`. -/
  | tbrb (r : Reg) (n : Nibble) (b : Word)
  /-- R308: `TBMM*,BIT,X A`. -/
  | tbmm (n : Nibble) (m : LongAddress)
  /-- R309: `TBMB*,BIT,X A,B`. -/
  | tbmb (n : Nibble) (m : LongAddress) (b : Word)
  /-- R310: `TBSM,BIT,D`. -/
  | tbsm (n d : Nibble)
  /-- R311: `TBSB,BIT,D B`. -/
  | tbsb (n d : Nibble) (b : Word)
  /-- R312: `TBXM,BIT,X`. -/
  | tbxm (n : Nibble) (x : Reg)
  /-- R313: `TBXB,BIT,X B`. -/
  | tbxb (n : Nibble) (x : Reg) (b : Word)
  /-- R314: `TEK,R,S B`. -/
  | tek (r q : Reg) (b : Word)
  /-- R315: `TRMB*,R,X A,B`. -/
  | trmb (r : Reg) (m : LongAddress) (b : Word)
  /-- R316: `TRSB,R,D B`. -/
  | trsb (r : Reg) (d : Nibble) (b : Word)
  /-- R317: `TRXB,R,X B`. -/
  | trxb (r x : Reg) (b : Word)
  /-- R318: `HOP,N`. -/
  | hop (n : BitVec 7)
  /-- R319: `HZR,N`. -/
  | hzr (n : BitVec 7)
  /-- R320: `HZS,N`. -/
  | hzs (n : BitVec 7)
  /-- R321: `HNR,N`. -/
  | hnr (n : BitVec 7)
  /-- R322: `HNS,N`. -/
  | hns (n : BitVec 7)
  /-- R323: `HCR,N`. -/
  | hcr (n : BitVec 7)
  /-- R324: `HCS,N`. -/
  | hcs (n : BitVec 7)
  /-- R325: `HOR,N`. -/
  | hor (n : BitVec 7)
  /-- R326: `HOS,N`. -/
  | hos (n : BitVec 7)
  /-- R327: `HLS,N`. -/
  | hls (n : BitVec 7)
  /-- R328: `HLE,N`. -/
  | hle (n : BitVec 7)
  /-- R329: `HGE,N`. -/
  | hge (n : BitVec 7)
  /-- R330: `HGT,N`. -/
  | hgt (n : BitVec 7)
  /-- R331: `HNH,N`. -/
  | hnh (n : BitVec 7)
  /-- R332: `HHI,N`. -/
  | hhi (n : BitVec 7)
  /-- R333: `BXR,X`. -/
  | bxr (x : Reg)
  /-- R334: `BXS,X`. -/
  | bxs (x : Reg)
  /-- R335: `BXNR,X`. -/
  | bxnr (x : Reg)
  /-- R336: `BXNS,X`. -/
  | bxns (x : Reg)
  /-- R337: `BXCR,X`. -/
  | bxcr (x : Reg)
  /-- R338: `BXCS,X`. -/
  | bxcs (x : Reg)
  /-- R339: `BXOR,X`. -/
  | bxor (x : Reg)
  /-- R340: `BXOS,X`. -/
  | bxos (x : Reg)
  /-- R341: `BXLS,X`. -/
  | bxls (x : Reg)
  /-- R342: `BXLE,X`. -/
  | bxle (x : Reg)
  /-- R343: `BXGE,X`. -/
  | bxge (x : Reg)
  /-- R344: `BXGT,X`. -/
  | bxgt (x : Reg)
  /-- R345: `BXNH,X`. -/
  | bxnh (x : Reg)
  /-- R346: `BXHI,X`. -/
  | bxhi (x : Reg)
  /-- R347: `BLM*,R,X (BRM*,X) B`. -/
  | blm (r : Reg) (m : LongAddress)
  /-- R348: `BLI,R`. -/
  | bli (r : Reg)
  /-- R349: `BLX,R,X (BRX,X)`. -/
  | blx (r x : Reg)
  /-- R350: `BLT,N`. -/
  | blt (n : BitVec 7)
  /-- R351: `BLZR,R (BZR) B`. -/
  | blzr (r : Reg) (b : Word)
  /-- R352: `BLZS,R (BZS) B`. -/
  | blzs (r : Reg) (b : Word)
  /-- R353: `BLNR,R (BNR) B`. -/
  | blnr (r : Reg) (b : Word)
  /-- R354: `BLNS,R (BNS) B`. -/
  | blns (r : Reg) (b : Word)
  /-- R355: `BLCR,R (BCR) B`. -/
  | blcr (r : Reg) (b : Word)
  /-- R356: `BLCS,R (BCS) B`. -/
  | blcs (r : Reg) (b : Word)
  /-- R357: `BLOR,R (BOR) B`. -/
  | blor (r : Reg) (b : Word)
  /-- R358: `BLOS,R (BOS) B`. -/
  | blos (r : Reg) (b : Word)
  /-- R359: `BLLS,R (BLS) B`. -/
  | blls (r : Reg) (b : Word)
  /-- R360: `BLLE,R (BLE) B`. -/
  | blle (r : Reg) (b : Word)
  /-- R361: `BLGE,R (BGE) B`. -/
  | blge (r : Reg) (b : Word)
  /-- R362: `BLGT,R (BGT) B`. -/
  | blgt (r : Reg) (b : Word)
  /-- R363: `BLNH,R (BNH) B`. -/
  | blnh (r : Reg) (b : Word)
  /-- R364: `BLHI,R (BHI) B`. -/
  | blhi (r : Reg) (b : Word)
  /-- R365: `ABR,R,BIT`. -/
  | abr (r : Reg) (n : Nibble)
  /-- R366: `ABRB,R,BIT B`. -/
  | abrb (r : Reg) (n : Nibble) (b : Word)
  /-- R367: `ABMM*,BIT,X A`. -/
  | abmm (n : Nibble) (m : LongAddress)
  /-- R368: `ABMB*,BIT,X A,B`. -/
  | abmb (n : Nibble) (m : LongAddress) (b : Word)
  /-- R369: `ABSM,BIT,D`. -/
  | absm (n d : Nibble)
  /-- R370: `ABSB,BIT,D B`. -/
  | absb (n d : Nibble) (b : Word)
  /-- R371: `ABXM,BIT,X`. -/
  | abxm (n : Nibble) (x : Reg)
  /-- R372: `ABXB,BIT,X B`. -/
  | abxb (n : Nibble) (x : Reg) (b : Word)
  /-- R373: `ADR,R,S`. -/
  | adr (r q : Reg)
  /-- R374: `ADRB,R,S B`. -/
  | adrb (r q : Reg) (b : Word)
  /-- R375: `ADRD,RP,SP (DAR)`. -/
  | adrd (r q : Reg)
  /-- R376: `ADMM*,R,X A`. -/
  | admm (r : Reg) (m : LongAddress)
  /-- R377: `ADMB*,R,X A,B`. -/
  | admb (r : Reg) (m : LongAddress) (b : Word)
  /-- R378: `ADSM,R,D`. -/
  | adsm (r : Reg) (d : Nibble)
  /-- R379: `ADSB,R,D B`. -/
  | adsb (r : Reg) (d : Nibble) (b : Word)
  /-- R380: `ADXM,R,X`. -/
  | adxm (r x : Reg)
  /-- R381: `ADXB,R,X B`. -/
  | adxb (r x : Reg) (b : Word)
  /-- R382: `ADM*,R,X A`. -/
  | adm (r : Reg) (m : LongAddress)
  /-- R383: `ADMD*,RP,X A`. -/
  | admd (r : Reg) (m : LongAddress)
  /-- R384: `ADI,R V`. -/
  | adi (r : Reg) (v : Word)
  /-- R385: `ADS,R,D`. -/
  | ads (r : Reg) (d : Nibble)
  /-- R386: `ADX,R,X`. -/
  | adx (r x : Reg)
  /-- R387: `SBR,R,BIT`. -/
  | sbr (r : Reg) (n : Nibble)
  /-- R388: `SBRB,R,BIT B`. -/
  | sbrb (r : Reg) (n : Nibble) (b : Word)
  /-- R389: `SUR,R,S`. -/
  | sur (r q : Reg)
  /-- R390: `SURB,R,S B`. -/
  | surb (r q : Reg) (b : Word)
  /-- R391: `SURD,RP,SP`. -/
  | surd (r q : Reg)
  /-- R392: `SUM*,R,X A`. -/
  | sum (r : Reg) (m : LongAddress)
  /-- R393: `SUMD*,RP,X A`. -/
  | sumd (r : Reg) (m : LongAddress)
  /-- R394: `SUI,R V`. -/
  | sui (r : Reg) (v : Word)
  /-- R395: `SUS,R,D`. -/
  | sus (r : Reg) (d : Nibble)
  /-- R396: `SUX,R,X`. -/
  | sux (r x : Reg)
  /-- R397: `MPR,R,S`. -/
  | mpr (r q : Reg)
  /-- R398: `MPRD,RP,SP`. -/
  | mprd (r q : Reg)
  /-- R399: `MPM*,R,X A`. -/
  | mpm (r : Reg) (m : LongAddress)
  /-- R400: `MPMD*,RP,X A`. -/
  | mpmd (r : Reg) (m : LongAddress)
  /-- R401: `MPS,R,D`. -/
  | mps (r : Reg) (d : Nibble)
  /-- R402: `MPX,R,X`. -/
  | mpx (r x : Reg)
  /-- R403: `DVR,R,S`. -/
  | dvr (r q : Reg)
  /-- R404: `DVRD,RQ,SP`. -/
  | dvrd (r q : Reg)
  /-- R405: `DVM*,R,X A`. -/
  | dvm (r : Reg) (m : LongAddress)
  /-- R406: `DVMD*,RQ,X A`. -/
  | dvmd (r : Reg) (m : LongAddress)
  /-- R407: `DVS,R,D`. -/
  | dvs (r : Reg) (d : Nibble)
  /-- R408: `DVX,R,X`. -/
  | dvx (r x : Reg)
  /-- R409: `TTR,R,S`. -/
  | ttr (r q : Reg)
  /-- R410: `TTRB,R,S B`. -/
  | ttrb (r q : Reg) (b : Word)
  /-- R411: `TTRD,RP,SP`. -/
  | ttrd (r q : Reg)
  /-- R412: `TTRQ,RQ,SQ`. -/
  | ttrq (r q : Reg)
  /-- R413: `ESS,RP,S`. -/
  | ess (r q : Reg)
  /-- R414: `ESD,RQ,SP`. -/
  | esd (r q : Reg)
  /-- R415: `FAR,RP,SP`. -/
  | far (r q : Reg)
  /-- R416: `FARD,RT,ST`. -/
  | fard (r q : Reg)
  /-- R417: `FARQ,RQ,SQ`. -/
  | farq (r q : Reg)
  /-- R418: `FAM,RP,X A`. -/
  | fam (r : Reg) (m : LongAddress)
  /-- R419: `FAMD,RT,X A`. -/
  | famd (r : Reg) (m : LongAddress)
  /-- R420: `FAMQ,RQ,X A`. -/
  | famq (r : Reg) (m : LongAddress)
  /-- R421: `FSR,RP,SP`. -/
  | fsr (r q : Reg)
  /-- R422: `FSRD,RT,ST`. -/
  | fsrd (r q : Reg)
  /-- R423: `FSRQ,RQ,SQ`. -/
  | fsrq (r q : Reg)
  /-- R424: `FSM,RP,X A`. -/
  | fsm (r : Reg) (m : LongAddress)
  /-- R425: `FSMD,RT,X A`. -/
  | fsmd (r : Reg) (m : LongAddress)
  /-- R426: `FSMQ,RQ,X A`. -/
  | fsmq (r : Reg) (m : LongAddress)
  /-- R427: `FMR,RP,SP`. -/
  | fmr (r q : Reg)
  /-- R428: `FMRD,RT,ST`. -/
  | fmrd (r q : Reg)
  /-- R429: `FMRQ,RQ,SQ`. -/
  | fmrq (r q : Reg)
  /-- R430: `FMM,RP,X A`. -/
  | fmm (r : Reg) (m : LongAddress)
  /-- R431: `FMMD,RT,X A`. -/
  | fmmd (r : Reg) (m : LongAddress)
  /-- R432: `FMMQ,RQ,X A`. -/
  | fmmq (r : Reg) (m : LongAddress)
  /-- R433: `FDR,RP,SP`. -/
  | fdr (r q : Reg)
  /-- R434: `FDRD,RT,ST`. -/
  | fdrd (r q : Reg)
  /-- R435: `FDRQ,RQ,SQ`. -/
  | fdrq (r q : Reg)
  /-- R436: `FDM,RP,X A`. -/
  | fdm (r : Reg) (m : LongAddress)
  /-- R437: `FDMD,RT,X A`. -/
  | fdmd (r : Reg) (m : LongAddress)
  /-- R438: `FDMQ,RQ,X A`. -/
  | fdmq (r : Reg) (m : LongAddress)
  /-- R439: `CDIE,RP,SP`. -/
  | cdie (r q : Reg)
  /-- R440: `CFDI,RP,SP`. -/
  | cfdi (r q : Reg)
  /-- R441: `COFF,RP,SQ`. -/
  | coff (r q : Reg)
  /-- R442: `REX,SN`. -/
  | rex (sn : BitVec 8)
  /-- R443: `RMI`. -/
  | rmi
  /-- R444: `NOP`. -/
  | nop
  /-- R445: `EXR,R,S`. -/
  | exr (r q : Reg)
  /-- R446: `LCIE,R`. -/
  | lcie (r : Reg)
  /-- R447: `LCIA,R`. -/
  | lcia (r : Reg)
  /-- R448: `LCIP,R`. -/
  | lcip (r : Reg)
  /-- R449: `LCCC,R`. -/
  | lccc (r : Reg)
  /-- R450: `LCPS,R`. -/
  | lcps (r : Reg)
  /-- R451: `LCPR,R`. -/
  | lcpr (r : Reg)
  /-- R452: `SCCC,R`. -/
  | sccc (r : Reg)
  /-- R453: `TDR`. -/
  | tdr
  /-- R454: `HLT`. -/
  | hlt
  /-- R455: `EVMO`. -/
  | evmo
  /-- R456: `MRRB,R,X`. -/
  | mrrbRm (r x : Reg)
  /-- R457: `MRRB,R,X`. -/
  | mrrbMr (r x : Reg)
  /-- R458: `SCRB`. -/
  | scrb
  /-- R459: `MABI`. -/
  | mabi
  /-- R460: `AMEM,RP`. -/
  | amem (r : Reg)
  /-- R461: `DMEH,RP`. -/
  | dmeh (r : Reg)
  /-- R462: `LIMP,RP`. -/
  | limp (r : Reg)
  /-- R463: `LOMP,RP`. -/
  | lomp (r : Reg)
  /-- R464: `ZIMP,RP`. -/
  | zimp (r : Reg)
  /-- R465: `ZOMP,RP`. -/
  | zomp (r : Reg)
  /-- R466: `SIOM,R`. -/
  | siom (r : Reg)
  /-- R467: `SOOM,R`. -/
  | soom (r : Reg)
  /-- R468: `SZOM`. -/
  | szom
  /-- R469: `LDVM,R,RP`. -/
  | ldvm (r p : Reg)
  /-- R470: `LDAM,R,RP`. -/
  | ldam (r p : Reg)
  /-- R471: `STVM,R,RP`. -/
  | stvm (r p : Reg)
  /-- R472: `STAN,R,RP`. -/
  | stan (r p : Reg)
  /-- R473: `SPR`. -/
  | spr
  /-- R474: `SGP,PR`. -/
  | sgp (pr : Nibble)
  /-- R475: `SLP,PR`. -/
  | slp (pr : Nibble)
  /-- R476: `SUP,PR`. -/
  | sup (pr : Nibble)
  /-- R477: `SIE,L`. -/
  | sie (l : Nibble)
  /-- R478: `SIA,L`. -/
  | sia (l : Nibble)
  /-- R479: `SIR,L`. -/
  | sir (l : Nibble)
  /-- R480: `RIE,L`. -/
  | rie (l : Nibble)
  /-- R481: `RIA,L`. -/
  | ria (l : Nibble)
  /-- R482: `RIR,L`. -/
  | rir (l : Nibble)
  /-- R483: `CAR,RP`. -/
  | car (r : Reg)
  /-- R484: `CIR,RP`. -/
  | cir (r : Reg)
  /-- R485: `ISi,R,U`. -/
  | isi (j : BitVec 2) (r : Reg) (u : Nibble)
  /-- R486: `IDi,R,U`. -/
  | idi (j : BitVec 2) (r : Reg) (u : Nibble)
  /-- R487: `OCi,R,U`. -/
  | oci (j : BitVec 2) (r : Reg) (u : Nibble)
  /-- R488: `ODi,R,U`. -/
  | odi (j : BitVec 2) (r : Reg) (u : Nibble)
  /-- R489: `DMPI,RP,CH`. -/
  | dmpi (r : Reg) (ch : Nibble)
  deriving DecidableEq, Repr

end Sys2Proof
end

