-- ==== Sys2Proof/Machine/Operands.lean ====
section
/-! DEFINITION. The operand forms (spec/20_memory.md R62-R72), the ways an instruction ends (R11, R43, D17, D19), and the bodies
that the rows of one shape share: register destination, memory destination, compare and test, store. -/

namespace Sys2Proof.Machine

/-- Where a memory operand stands (R62-R69). -/
inductive MemOperand where
  /-- DIRECT, INDEXED, INDIRECT, INDEXED INDIRECT (R62-R66). -/
  | long (m : LongAddress)
  /-- SHORT DISPLACED (R68). -/
  | displaced (d : Nibble)
  /-- SHORT INDEXED (R69). -/
  | indexed (x : Reg)
  deriving DecidableEq, Repr

/-- X is in 1..7 (R69). -/
def indexAdmitted (x : Reg) : Bool := x != 0#4 && !x.getLsbD 3

/-- The address in an index register (R69). -/
def indexedAddress (x : Reg) (s : State) : Res Word :=
  if indexAdmitted x then .next (s.regs.get x) else .refused .indexRegister

/-- `EA_long(loc)`: the address word, one indirection where I = 1, then the index register where X is not 0 (R66). -/
def longAddress (m : LongAddress) (s : State) : Res Word :=
  Res.bind (if m.ind then loadWord m.a s else .next m.a) fun a =>
    .next (if m.x = 0#3 then a else a + s.regs.get (m.x.zeroExtend 4))

/-- The effective address (R62-R69). -/
def effectiveAddress (o : MemOperand) (s : State) : Res Word :=
  match o with
  | .long m => longAddress m s
  | .displaced d => .next (s.regs.get 1#4 + d.zeroExtend 16)
  | .indexed x => indexedAddress x s

/-- The BYTE mode (R72): the word address, and whether the byte is the left one. The offset is in register X OR 1. -/
def byteAddress (x : Reg) (s : State) : Res (Word × Bool) :=
  Res.bind (indexedAddress x s) fun base =>
    let offset := s.regs.get (x ||| 1#4)
    .next (base + (offset >>> 1), !offset.getLsbD 0)

/-- A memory operand read (R75). -/
def readMem (k : Width) (o : MemOperand) (s : State) : Res (BitVec k.bits) :=
  Res.bind (effectiveAddress o s) fun a => loadMulti k a s

/-- A source operand. -/
inductive Src (k : Width) where
  /-- A register or register multiple (R21, R22). -/
  | reg (r : Reg)
  /-- A memory operand (R62-R69). -/
  | mem (o : MemOperand)
  /-- A value in the instruction: V (R67) or the mask of BIT (R71). -/
  | const (v : BitVec k.bits)
  deriving DecidableEq, Repr

/-- The value of a source operand. -/
def Src.read {k : Width} (src : Src k) (s : State) : Res (BitVec k.bits) :=
  match src with
  | .reg r => readReg k r s
  | .mem o => readMem k o s
  | .const v => .next v

/-- How an instruction of `words` words ends. -/
inductive Next where
  /-- The next instruction (R11). -/
  | seq (words : Nat)
  /-- BR unconditionally to B. -/
  | always (b : Word)
  /-- BR to B if the result is not zero (D48). -/
  | nonzero (words : Nat) (b : Word)
  /-- BR on the <= condition: to B1 on less, to B2 on equal (R299, D19). -/
  | lessEqual (words : Nat) (b1 b2 : Word)
  deriving DecidableEq, Repr

/-- The next pc, from the address of the instruction, whether the result is not zero, and the codes just set (R11, D17). -/
def Next.target (nx : Next) (loc : Word) (isNonzero : Bool) (p : Psw) : Word :=
  match nx with
  | .seq n => loc + BitVec.ofNat 16 n
  | .always b => b
  | .nonzero n b => if isNonzero then b else loc + BitVec.ofNat 16 n
  | .lessEqual n b1 b2 => if p.cond .less then b1 else if p.z then b2 else loc + BitVec.ofNat 16 n

/-- The instruction ends; until here `pc` is its own address. -/
def State.finish (s : State) (nx : Next) (isNonzero : Bool) : State :=
  { s with pc := nx.target s.pc isNonzero s.psw }

/-- The next instruction, `words` words on (R11). -/
def State.advance (s : State) (words : Nat) : State := { s with pc := s.pc + BitVec.ofNat 16 words }

/-- The displacement of a hop, in two's complement (R70, R111). -/
def hopTarget (loc : Word) (n : BitVec 7) : Word := loc + n.signExtend 16

/-- Rows with a register destination: the register receives the operation of itself and the source (R78). -/
def toRegister (k : Width) (op : Alu) (r : Reg) (src : Src k) (nx : Next) (s : State) : Res State :=
  Res.bind (readReg k r s) fun a => Res.bind (src.read s) fun b =>
    .next (((op.flags a b s).setReg k r (op.result a b)).finish nx (op.result a b != 0#k.bits))

/-- Rows with a memory destination: the word is read, and then written with the operation of itself and the source (R77). -/
def toMemory (op : Alu) (o : MemOperand) (src : Src .single) (nx : Next) (s : State) : Res State :=
  Res.bind (src.read s) fun b => Res.bind (effectiveAddress o s) fun ea => Res.bind (loadWord ea s) fun a =>
    Res.bind (storeWord ea (op.result a b) (op.flags a b s)) fun t => .next (t.finish nx (op.result a b != 0#16))

/-- Rows that set codes only: compare and test (D13, R306, R314). -/
def inspect (k : Width) (op : Alu) (first second : Src k) (nx : Next) (s : State) : Res State :=
  Res.bind (first.read s) fun a => Res.bind (second.read s) fun b =>
    .next ((op.flags a b s).finish nx (op.result a b != 0#k.bits))

/-- Rows that store a register or register multiple (R213-R218). -/
def storeRegister (k : Width) (o : MemOperand) (r : Reg) (words : Nat) (s : State) : Res State :=
  Res.bind (readReg k r s) fun v => Res.bind (effectiveAddress o s) fun ea =>
    Res.bind (storeMulti k ea v s) fun t => .next (t.advance words)

end Sys2Proof.Machine
end

