-- ==== Sys2Proof/Machine/AddSubtract.lean ====
section
/-! DEFINITION. The add and subtract instructions (spec/45_add_subtract.md R365-R396). -/

namespace Sys2Proof.Machine

/-- R365 `ABR,R,BIT`: Add Bit, in R. -/
def execAbr (r : Reg) (n : Nibble) (s : State) : Res State := toRegister .single .add r (.const (bitmask n)) (.seq 1) s

/-- R366 `ABRB,R,BIT B`: Add Bit, in R, BR if nonzero. -/
def execAbrb (r : Reg) (n : Nibble) (b : Word) (s : State) : Res State :=
  toRegister .single .add r (.const (bitmask n)) (.nonzero 2 b) s

/-- R367 `ABMM*,BIT,X A`: Add Bit, in M. -/
def execAbmm (n : Nibble) (m : LongAddress) (s : State) : Res State := toMemory .add (.long m) (.const (bitmask n)) (.seq 2) s

/-- R368 `ABMB*,BIT,X A,B`: Add Bit, in M, BR if nonzero. -/
def execAbmb (n : Nibble) (m : LongAddress) (b : Word) (s : State) : Res State :=
  toMemory .add (.long m) (.const (bitmask n)) (.nonzero 3 b) s

/-- R369 `ABSM,BIT,D`: Add Bit, in M Short Displaced. -/
def execAbsm (n d : Nibble) (s : State) : Res State := toMemory .add (.displaced d) (.const (bitmask n)) (.seq 1) s

/-- R370 `ABSB,BIT,D B`: Add Bit, in M Short Displaced, BR if nonzero. -/
def execAbsb (n d : Nibble) (b : Word) (s : State) : Res State :=
  toMemory .add (.displaced d) (.const (bitmask n)) (.nonzero 2 b) s

/-- R371 `ABXM,BIT,X`: Add Bit, in M Short Indexed. -/
def execAbxm (n : Nibble) (x : Reg) (s : State) : Res State := toMemory .add (.indexed x) (.const (bitmask n)) (.seq 1) s

/-- R372 `ABXB,BIT,X B`: Add Bit, in M Short Indexed, BR if nonzero. -/
def execAbxb (n : Nibble) (x : Reg) (b : Word) (s : State) : Res State :=
  toMemory .add (.indexed x) (.const (bitmask n)) (.nonzero 2 b) s

/-- R373 `ADR,R,S`: Add Register, to R. -/
def execAdr (r q : Reg) (s : State) : Res State := toRegister .single .add r (.reg q) (.seq 1) s

/-- R374 `ADRB,R,S B`: Add Register, to R, BR if nonzero. -/
def execAdrb (r q : Reg) (b : Word) (s : State) : Res State := toRegister .single .add r (.reg q) (.nonzero 2 b) s

/-- R375 `ADRD,RP,SP (DAR)`: Add Register, to R double. -/
def execAdrd (r q : Reg) (s : State) : Res State := toRegister .double .add r (.reg q) (.seq 1) s

/-- R376 `ADMM*,R,X A`: Add Register, to M. -/
def execAdmm (r : Reg) (m : LongAddress) (s : State) : Res State := toMemory .add (.long m) (.reg r) (.seq 2) s

/-- R377 `ADMB*,R,X A,B`: Add Register, to M, BR if nonzero. -/
def execAdmb (r : Reg) (m : LongAddress) (b : Word) (s : State) : Res State := toMemory .add (.long m) (.reg r) (.nonzero 3 b) s

/-- R378 `ADSM,R,D`: Add Register, to M Short Displaced. -/
def execAdsm (r : Reg) (d : Nibble) (s : State) : Res State := toMemory .add (.displaced d) (.reg r) (.seq 1) s

/-- R379 `ADSB,R,D B`: Add Register, to M Short Displaced, BR if nonzero. -/
def execAdsb (r : Reg) (d : Nibble) (b : Word) (s : State) : Res State := toMemory .add (.displaced d) (.reg r) (.nonzero 2 b) s

/-- R380 `ADXM,R,X`: Add Register, to M Short Indexed. -/
def execAdxm (r x : Reg) (s : State) : Res State := toMemory .add (.indexed x) (.reg r) (.seq 1) s

/-- R381 `ADXB,R,X B`: Add Register, to M Short Indexed, BR if nonzero. -/
def execAdxb (r x : Reg) (b : Word) (s : State) : Res State := toMemory .add (.indexed x) (.reg r) (.nonzero 2 b) s

/-- R382 `ADM*,R,X A`: Add Memory, to R. -/
def execAdm (r : Reg) (m : LongAddress) (s : State) : Res State := toRegister .single .add r (.mem (.long m)) (.seq 2) s

/-- R383 `ADMD*,RP,X A`: Add Memory, to R double. -/
def execAdmd (r : Reg) (m : LongAddress) (s : State) : Res State := toRegister .double .add r (.mem (.long m)) (.seq 2) s

/-- R384 `ADI,R V`: Add Memory, to R Immediate. -/
def execAdi (r : Reg) (v : Word) (s : State) : Res State := toRegister .single .add r (.const v) (.seq 2) s

/-- R385 `ADS,R,D`: Add Memory, to R Short Displaced. -/
def execAds (r : Reg) (d : Nibble) (s : State) : Res State := toRegister .single .add r (.mem (.displaced d)) (.seq 1) s

/-- R386 `ADX,R,X`: Add Memory, to R Short Indexed. -/
def execAdx (r x : Reg) (s : State) : Res State := toRegister .single .add r (.mem (.indexed x)) (.seq 1) s

/-- R387 `SBR,R,BIT`: Subtract Bit, in R. -/
def execSbr (r : Reg) (n : Nibble) (s : State) : Res State := toRegister .single .subtract r (.const (bitmask n)) (.seq 1) s

/-- R388 `SBRB,R,BIT B`: Subtract Bit, in R, BR if nonzero. -/
def execSbrb (r : Reg) (n : Nibble) (b : Word) (s : State) : Res State :=
  toRegister .single .subtract r (.const (bitmask n)) (.nonzero 2 b) s

/-- R389 `SUR,R,S`: Subtract Register, from R. -/
def execSur (r q : Reg) (s : State) : Res State := toRegister .single .subtract r (.reg q) (.seq 1) s

/-- R390 `SURB,R,S B`: Subtract Register, from R, BR in nonzero. -/
def execSurb (r q : Reg) (b : Word) (s : State) : Res State := toRegister .single .subtract r (.reg q) (.nonzero 2 b) s

/-- R391 `SURD,RP,SP`: Subtract Register, from R double. -/
def execSurd (r q : Reg) (s : State) : Res State := toRegister .double .subtract r (.reg q) (.seq 1) s

/-- R392 `SUM*,R,X A`: Subtract Memory, from R. -/
def execSum (r : Reg) (m : LongAddress) (s : State) : Res State := toRegister .single .subtract r (.mem (.long m)) (.seq 2) s

/-- R393 `SUMD*,RP,X A`: Subtract Memory, from R double. -/
def execSumd (r : Reg) (m : LongAddress) (s : State) : Res State := toRegister .double .subtract r (.mem (.long m)) (.seq 2) s

/-- R394 `SUI,R V`: Subtract Memory, from R Immediate. -/
def execSui (r : Reg) (v : Word) (s : State) : Res State := toRegister .single .subtract r (.const v) (.seq 2) s

/-- R395 `SUS,R,D`: Subtract Memory, from R Short Displaced. -/
def execSus (r : Reg) (d : Nibble) (s : State) : Res State := toRegister .single .subtract r (.mem (.displaced d)) (.seq 1) s

/-- R396 `SUX,R,X`: Subtract Memory, from R Short Indexed. -/
def execSux (r x : Reg) (s : State) : Res State := toRegister .single .subtract r (.mem (.indexed x)) (.seq 1) s

end Sys2Proof.Machine
end

