-- ==== Sys2Proof/Machine/Branch.lean ====
section
/-! DEFINITION. The branch instructions (spec/44_branch.md R318-R364). -/

namespace Sys2Proof.Machine

/-- A hop (R318-R332): to loc + N if taken, else to the next word; the field 1000000b refuses (R111). -/
def hopIf (taken : Bool) (n : BitVec 7) (s : State) : Res State :=
  if n = 0x40#7 then .refused .hopField
  else .next { s with pc := if taken then hopTarget s.pc n else s.pc + 1 }

/-- Branch Short Indexed (R333-R346): to the address in X if taken, else to the next word. -/
def branchIndexedIf (taken : Bool) (x : Reg) (s : State) : Res State :=
  Res.bind (indexedAddress x s) fun a => .next { s with pc := if taken then a else s.pc + 1 }

/-- The link of a branch: the return address in R, nothing where R is 0 (R21 (b), D18). -/
def State.link (s : State) (r : Reg) (words : Nat) : State :=
  if r = 0#4 then s else s.setReg .single r (s.pc + BitVec.ofNat 16 words)

/-- Conditional Branch and Link (R351-R364): linked and to B if taken, else nothing saved and to the next instruction. -/
def branchLinkIf (taken : Bool) (r : Reg) (b : Word) (s : State) : Res State :=
  if taken then .next { s.link r 2 with pc := b } else .next (s.advance 2)

/-- Branch and Link through a long-form address (R347): the address is complete before the link is written. -/
def branchLinkLong (r : Reg) (m : LongAddress) (s : State) : Res State :=
  Res.bind (longAddress m s) fun ea => .next { s.link r 2 with pc := ea }

/-- Branch and Link Short Indexed (R349): the target is the old content of X. -/
def branchLinkIndexed (r x : Reg) (s : State) : Res State :=
  Res.bind (indexedAddress x s) fun a => .next { s.link r 1 with pc := a }

/-- Branch and Link Immediate (R348): R receives the address of the next word, where control goes on. -/
def linkNext (r : Reg) (s : State) : Res State :=
  Res.bind (readReg .single r s) fun _ => .next ((s.setReg .single r (s.pc + 1)).advance 1)

/-- R318 `HOP,N`: Hop (short branch), unconditionally. -/
def execHop (n : BitVec 7) (s : State) : Res State := hopIf true n s

/-- R319 `HZR,N`: Hop (short branch), on condition code Z reset. -/
def execHzr (n : BitVec 7) (s : State) : Res State := hopIf (!s.psw.cond .z) n s

/-- R320 `HZS,N`: Hop (short branch), on condition code Z set. -/
def execHzs (n : BitVec 7) (s : State) : Res State := hopIf (s.psw.cond .z) n s

/-- R321 `HNR,N`: Hop (short branch), on condition code N reset. -/
def execHnr (n : BitVec 7) (s : State) : Res State := hopIf (!s.psw.cond .n) n s

/-- R322 `HNS,N`: Hop (short branch), on condition code N set. -/
def execHns (n : BitVec 7) (s : State) : Res State := hopIf (s.psw.cond .n) n s

/-- R323 `HCR,N`: Hop (short branch), on condition code C reset. -/
def execHcr (n : BitVec 7) (s : State) : Res State := hopIf (!s.psw.cond .c) n s

/-- R324 `HCS,N`: Hop (short branch), on condition code C set. -/
def execHcs (n : BitVec 7) (s : State) : Res State := hopIf (s.psw.cond .c) n s

/-- R325 `HOR,N`: Hop (short branch), on condition code O reset. -/
def execHor (n : BitVec 7) (s : State) : Res State := hopIf (!s.psw.cond .o) n s

/-- R326 `HOS,N`: Hop (short branch), on condition code O set. -/
def execHos (n : BitVec 7) (s : State) : Res State := hopIf (s.psw.cond .o) n s

/-- R327 `HLS,N`: Hop (short branch), on less than condition. -/
def execHls (n : BitVec 7) (s : State) : Res State := hopIf (s.psw.cond .less) n s

/-- R328 `HLE,N`: Hop (short branch), on less than or equal condition. -/
def execHle (n : BitVec 7) (s : State) : Res State := hopIf (s.psw.cond .lessEqual) n s

/-- R329 `HGE,N`: Hop (short branch), on greater than or equal condition. -/
def execHge (n : BitVec 7) (s : State) : Res State := hopIf (!s.psw.cond .less) n s

/-- R330 `HGT,N`: Hop (short branch), on greater than condition. -/
def execHgt (n : BitVec 7) (s : State) : Res State := hopIf (!s.psw.cond .lessEqual) n s

/-- R331 `HNH,N`: Hop (short branch), on magnitude not higher condition. -/
def execHnh (n : BitVec 7) (s : State) : Res State := hopIf (!s.psw.cond .higher) n s

/-- R332 `HHI,N`: Hop (short branch), on magnitude higher condition. -/
def execHhi (n : BitVec 7) (s : State) : Res State := hopIf (s.psw.cond .higher) n s

/-- R333 `BXR,X`: Branch Short Indexed, on condition code Z reset. -/
def execBxr (x : Reg) (s : State) : Res State := branchIndexedIf (!s.psw.cond .z) x s

/-- R334 `BXS,X`: Branch Short Indexed, on condition code Z set. -/
def execBxs (x : Reg) (s : State) : Res State := branchIndexedIf (s.psw.cond .z) x s

/-- R335 `BXNR,X`: Branch Short Indexed, on condition code N reset. -/
def execBxnr (x : Reg) (s : State) : Res State := branchIndexedIf (!s.psw.cond .n) x s

/-- R336 `BXNS,X`: Branch Short Indexed, on condition code N set. -/
def execBxns (x : Reg) (s : State) : Res State := branchIndexedIf (s.psw.cond .n) x s

/-- R337 `BXCR,X`: Branch Short Indexed, on condition code C reset. -/
def execBxcr (x : Reg) (s : State) : Res State := branchIndexedIf (!s.psw.cond .c) x s

/-- R338 `BXCS,X`: Branch Short Indexed, on condition code C set. -/
def execBxcs (x : Reg) (s : State) : Res State := branchIndexedIf (s.psw.cond .c) x s

/-- R339 `BXOR,X`: Branch Short Indexed, on condition code O reset. -/
def execBxor (x : Reg) (s : State) : Res State := branchIndexedIf (!s.psw.cond .o) x s

/-- R340 `BXOS,X`: Branch Short Indexed, on condition code O set. -/
def execBxos (x : Reg) (s : State) : Res State := branchIndexedIf (s.psw.cond .o) x s

/-- R341 `BXLS,X`: Branch Short Indexed, on less than condition. -/
def execBxls (x : Reg) (s : State) : Res State := branchIndexedIf (s.psw.cond .less) x s

/-- R342 `BXLE,X`: Branch Short Indexed, on less than or equal condition. -/
def execBxle (x : Reg) (s : State) : Res State := branchIndexedIf (s.psw.cond .lessEqual) x s

/-- R343 `BXGE,X`: Branch Short Indexed, on greater than or equal condition. -/
def execBxge (x : Reg) (s : State) : Res State := branchIndexedIf (!s.psw.cond .less) x s

/-- R344 `BXGT,X`: Branch Short Indexed, on greater than condition. -/
def execBxgt (x : Reg) (s : State) : Res State := branchIndexedIf (!s.psw.cond .lessEqual) x s

/-- R345 `BXNH,X`: Branch Short Indexed, on magnitude not higher condition. -/
def execBxnh (x : Reg) (s : State) : Res State := branchIndexedIf (!s.psw.cond .higher) x s

/-- R346 `BXHI,X`: Branch Short Indexed, on magnitude higher condition. -/
def execBxhi (x : Reg) (s : State) : Res State := branchIndexedIf (s.psw.cond .higher) x s

/-- R347 `BLM*,R,X (BRM*,X) B`: Branch and Link (parenthesized instructions do not save link), unconditionally. -/
def execBlm (r : Reg) (m : LongAddress) (s : State) : Res State := branchLinkLong r m s

/-- R348 `BLI,R`: Branch and Link (parenthesized instructions do not save link), Immediate. -/
def execBli (r : Reg) (s : State) : Res State := linkNext r s

/-- R349 `BLX,R,X (BRX,X)`: Branch and Link (parenthesized instructions do not save link), Short Indexed unconditionally. -/
def execBlx (r x : Reg) (s : State) : Res State := branchLinkIndexed r x s

/-- R350 `BLT,N`: Branch and Link (parenthesized instructions do not save link), Indexed through Table. -/
def execBlt (_n : BitVec 7) (_s : State) : Res State := .refused .branchTable

/-- R351 `BLZR,R (BZR) B`: Branch and Link (parenthesized instructions do not save link), on condition code Z reset. -/
def execBlzr (r : Reg) (b : Word) (s : State) : Res State := branchLinkIf (!s.psw.cond .z) r b s

/-- R352 `BLZS,R (BZS) B`: Branch and Link (parenthesized instructions do not save link), on condition code Z set. -/
def execBlzs (r : Reg) (b : Word) (s : State) : Res State := branchLinkIf (s.psw.cond .z) r b s

/-- R353 `BLNR,R (BNR) B`: Branch and Link (parenthesized instructions do not save link), on condition code N reset. -/
def execBlnr (r : Reg) (b : Word) (s : State) : Res State := branchLinkIf (!s.psw.cond .n) r b s

/-- R354 `BLNS,R (BNS) B`: Branch and Link (parenthesized instructions do not save link), on condition code N set. -/
def execBlns (r : Reg) (b : Word) (s : State) : Res State := branchLinkIf (s.psw.cond .n) r b s

/-- R355 `BLCR,R (BCR) B`: Branch and Link (parenthesized instructions do not save link), on condition code C reset. -/
def execBlcr (r : Reg) (b : Word) (s : State) : Res State := branchLinkIf (!s.psw.cond .c) r b s

/-- R356 `BLCS,R (BCS) B`: Branch and Link (parenthesized instructions do not save link), on condition code C set. -/
def execBlcs (r : Reg) (b : Word) (s : State) : Res State := branchLinkIf (s.psw.cond .c) r b s

/-- R357 `BLOR,R (BOR) B`: Branch and Link (parenthesized instructions do not save link), on condition code O reset. -/
def execBlor (r : Reg) (b : Word) (s : State) : Res State := branchLinkIf (!s.psw.cond .o) r b s

/-- R358 `BLOS,R (BOS) B`: Branch and Link (parenthesized instructions do not save link), on condition code O set. -/
def execBlos (r : Reg) (b : Word) (s : State) : Res State := branchLinkIf (s.psw.cond .o) r b s

/-- R359 `BLLS,R (BLS) B`: Branch and Link (parenthesized instructions do not save link), on less than condition. -/
def execBlls (r : Reg) (b : Word) (s : State) : Res State := branchLinkIf (s.psw.cond .less) r b s

/-- R360 `BLLE,R (BLE) B`: Branch and Link (parenthesized instructions do not save link), on less than or equal condition. -/
def execBlle (r : Reg) (b : Word) (s : State) : Res State := branchLinkIf (s.psw.cond .lessEqual) r b s

/-- R361 `BLGE,R (BGE) B`: Branch and Link (parenthesized instructions do not save link), on greater than or equal condition. -/
def execBlge (r : Reg) (b : Word) (s : State) : Res State := branchLinkIf (!s.psw.cond .less) r b s

/-- R362 `BLGT,R (BGT) B`: Branch and Link (parenthesized instructions do not save link), on greater than condition. -/
def execBlgt (r : Reg) (b : Word) (s : State) : Res State := branchLinkIf (!s.psw.cond .lessEqual) r b s

/-- R363 `BLNH,R (BNH) B`: Branch and Link (parenthesized instructions do not save link), on magnitude not higher condition. -/
def execBlnh (r : Reg) (b : Word) (s : State) : Res State := branchLinkIf (!s.psw.cond .higher) r b s

/-- R364 `BLHI,R (BHI) B`: Branch and Link (parenthesized instructions do not save link), on magnitude higher condition. -/
def execBlhi (r : Reg) (b : Word) (s : State) : Res State := branchLinkIf (s.psw.cond .higher) r b s

end Sys2Proof.Machine
end

