-- ==== Sys2Proof/Machine/CompareTest.lean ====
section
/-! DEFINITION. The compare and test instructions (spec/43_compare_test.md R293-R317). -/

namespace Sys2Proof.Machine

/-- R293 `CBMB*,BIT,X A,B,B`: Compare Bit ...BR if less than or equal (<= condition), with M. -/
def execCbmb (_n : Nibble) (_m : LongAddress) (_b1 _b2 : Word) (_s : State) : Res State := .refused .compareBitOperands

/-- R294 `CBSB,BIT,D B,B`: Compare Bit ...BR if less than or equal (<= condition), with M Short Displaced. -/
def execCbsb (_n _d : Nibble) (_b1 _b2 : Word) (_s : State) : Res State := .refused .compareBitOperands

/-- R295 `CBXB,BIT,X B,B`: Compare Bit ...BR if less than or equal (<= condition), with M Short Indexed. -/
def execCbxb (_n : Nibble) (_x : Reg) (_b1 _b2 : Word) (_s : State) : Res State := .refused .compareBitOperands

/-- R296 `CRR,R,S`: Compare Register, with R. -/
def execCrr (r q : Reg) (s : State) : Res State := inspect .single .subtract (.reg r) (.reg q) (.seq 1) s

/-- R297 `CRRD,RP,SP`: Compare Register, with R double. -/
def execCrrd (r q : Reg) (s : State) : Res State := inspect .double .subtract (.reg r) (.reg q) (.seq 1) s

/-- R298 `CRM*,R,X A`: Compare Register, with M. -/
def execCrm (r : Reg) (m : LongAddress) (s : State) : Res State :=
  inspect .single .subtract (.reg r) (.mem (.long m)) (.seq 2) s

/-- R299 `CRMB*,R,X A,B,B`: Compare Register, with M and BR on <= condition. -/
def execCrmb (r : Reg) (m : LongAddress) (b1 b2 : Word) (s : State) : Res State :=
  inspect .single .subtract (.reg r) (.mem (.long m)) (.lessEqual 4 b1 b2) s

/-- R300 `CRMD*,RP,X A`: Compare Register, with M double. -/
def execCrmd (r : Reg) (m : LongAddress) (s : State) : Res State :=
  inspect .double .subtract (.reg r) (.mem (.long m)) (.seq 2) s

/-- R301 `CRI,R V`: Compare Register, with M Immediate. -/
def execCri (r : Reg) (v : Word) (s : State) : Res State := inspect .single .subtract (.reg r) (.const v) (.seq 2) s

/-- R302 `CRS,R,D`: Compare Register, with M Short Displaced. -/
def execCrs (r : Reg) (d : Nibble) (s : State) : Res State :=
  inspect .single .subtract (.reg r) (.mem (.displaced d)) (.seq 1) s

/-- R303 `CRSB,R,D B,B`: Compare Register, with M Short Displaced, BR on <= condition. -/
def execCrsb (r : Reg) (d : Nibble) (b1 b2 : Word) (s : State) : Res State :=
  inspect .single .subtract (.reg r) (.mem (.displaced d)) (.lessEqual 3 b1 b2) s

/-- R304 `CRX,R,X`: Compare Register, with M Short Indexed. -/
def execCrx (r x : Reg) (s : State) : Res State := inspect .single .subtract (.reg r) (.mem (.indexed x)) (.seq 1) s

/-- R305 `CRXB,R,X B,B`: Compare Register, with M Short Indexed, BR on <= condition. -/
def execCrxb (r x : Reg) (b1 b2 : Word) (s : State) : Res State :=
  inspect .single .subtract (.reg r) (.mem (.indexed x)) (.lessEqual 3 b1 b2) s

/-- R306 `TBR,R,BIT`: Test Bit, in R. -/
def execTbr (r : Reg) (n : Nibble) (s : State) : Res State := inspect .single .testBit (.reg r) (.const (bitmask n)) (.seq 1) s

/-- R307 `TBRB,R,BIT B`: Test Bit, in R, BR if one. -/
def execTbrb (r : Reg) (n : Nibble) (b : Word) (s : State) : Res State :=
  inspect .single .testBit (.reg r) (.const (bitmask n)) (.nonzero 2 b) s

/-- R308 `TBMM*,BIT,X A`: Test Bit, in M. -/
def execTbmm (n : Nibble) (m : LongAddress) (s : State) : Res State :=
  inspect .single .testBit (.mem (.long m)) (.const (bitmask n)) (.seq 2) s

/-- R309 `TBMB*,BIT,X A,B`: Test Bit, in M, BR if one. -/
def execTbmb (n : Nibble) (m : LongAddress) (b : Word) (s : State) : Res State :=
  inspect .single .testBit (.mem (.long m)) (.const (bitmask n)) (.nonzero 3 b) s

/-- R310 `TBSM,BIT,D`: Test Bit, in M Short Displaced. -/
def execTbsm (n d : Nibble) (s : State) : Res State :=
  inspect .single .testBit (.mem (.displaced d)) (.const (bitmask n)) (.seq 1) s

/-- R311 `TBSB,BIT,D B`: Test Bit, in M Short Displaced, BR if one. -/
def execTbsb (n d : Nibble) (b : Word) (s : State) : Res State :=
  inspect .single .testBit (.mem (.displaced d)) (.const (bitmask n)) (.nonzero 2 b) s

/-- R312 `TBXM,BIT,X`: Test Bit, in M Short Indexed. -/
def execTbxm (n : Nibble) (x : Reg) (s : State) : Res State :=
  inspect .single .testBit (.mem (.indexed x)) (.const (bitmask n)) (.seq 1) s

/-- R313 `TBXB,BIT,X B`: Test Bit, in M Short Indexed, BR if one. -/
def execTbxb (n : Nibble) (x : Reg) (b : Word) (s : State) : Res State :=
  inspect .single .testBit (.mem (.indexed x)) (.const (bitmask n)) (.nonzero 2 b) s

/-- R314 `TEK,R,S B`: Test Register ..., BR if any one's compare, and R. -/
def execTek (r q : Reg) (b : Word) (s : State) : Res State := inspect .single .testOnes (.reg r) (.reg q) (.nonzero 2 b) s

/-- R315 `TRMB*,R,X A,B`: Test Register ..., BR if any one's compare, and M. -/
def execTrmb (r : Reg) (m : LongAddress) (b : Word) (s : State) : Res State :=
  inspect .single .testOnes (.reg r) (.mem (.long m)) (.nonzero 3 b) s

/-- R316 `TRSB,R,D B`: Test Register ..., BR if any one's compare, and M Short Displaced. -/
def execTrsb (r : Reg) (d : Nibble) (b : Word) (s : State) : Res State :=
  inspect .single .testOnes (.reg r) (.mem (.displaced d)) (.nonzero 2 b) s

/-- R317 `TRXB,R,X B`: Test Register ..., BR if any one's compare, and M Short Indexed. -/
def execTrxb (r x : Reg) (b : Word) (s : State) : Res State :=
  inspect .single .testOnes (.reg r) (.mem (.indexed x)) (.nonzero 2 b) s

end Sys2Proof.Machine
end

