-- ==== Sys2Proof/Machine/Control.lean ====
section
/-! DEFINITION. The request and control instructions, unprivileged and privileged (spec/48_control.md R442-R476). -/

namespace Sys2Proof.Machine

/-- The environment receives an event (spec/60_exceptions.md R616, R617). -/
def State.emit (s : State) (e : OutputEvent) : State := { s with outputs := e :: s.outputs }

/-- The rows that load R with a control word; no code is written (R446-R451). -/
def loadControl (r : Reg) (v : Word) (s : State) : Res State :=
  Res.bind (readReg .single r s) fun _ => .next ((s.setReg .single r v).advance 1)

/-- SCCC (R452): the codes from bits 12-15 of R; OH is left as it is. -/
def selectCodes (r : Reg) (s : State) : Res State :=
  Res.bind (readReg .single r s) fun v =>
    .next ((s.setCodes ⟨v.getLsbD 3, v.getLsbD 2, v.getLsbD 1, v.getLsbD 0⟩).advance 1)

/-- LDAM (R470): the actual address is in the pair; "ZN". -/
def loadActual (r p : Reg) (s : State) : Res State :=
  Res.bind (readReg .single r s) fun _ => Res.bind (readReg .double p s) fun pa => Res.bind (physRead pa s) fun v =>
    .next (((s.setZN v).setReg .single r v).advance 1)

/-- STAN (R472): the actual address is in the pair; no code is written. -/
def storeActual (r p : Reg) (s : State) : Res State :=
  Res.bind (readReg .single r s) fun v => Res.bind (readReg .double p s) fun pa => Res.bind (physWrite pa v s) fun t =>
    .next (t.advance 1)

/-- R442 `REX,SN`: Request, Executive service. -/
def execRex (sn : BitVec 8) (s : State) : Res State := raiseEvent (.executiveRequest sn) s

/-- R443 `RMI`: Request, multiprocessor interrupt(s). -/
def execRmi (s : State) : Res State := .next ((s.emit .multiprocessorRequest).advance 1)

/-- R444 `NOP`: Null Operation, no operation. -/
def execNop (s : State) : Res State := .next (s.advance 1)

/-- R445 `EXR,R,S`: Execute Instruction Word, in R(s). -/
def execExr (_r _q : Reg) (_s : State) : Res State := .refused .executedWord

/-- R446 `LCIE,R`: Load Register with Current Interrupt, enable latches. -/
def execLcie (r : Reg) (s : State) : Res State := loadControl r s.ie s

/-- R447 `LCIA,R`: Load Register with Current Interrupt, active latches. -/
def execLcia (r : Reg) (s : State) : Res State := loadControl r s.ia s

/-- R448 `LCIP,R`: Load Register with Current Interrupt, request latches. -/
def execLcip (r : Reg) (s : State) : Res State := loadControl r s.ir s

/-- R449 `LCCC,R`: Load Register with...of PSD, current Condition Codes. -/
def execLccc (r : Reg) (s : State) : Res State := loadControl r s.psw.codesWord s

/-- R450 `LCPS,R`: Load Register with...of PSD, current Program Status Register. -/
def execLcps (r : Reg) (s : State) : Res State := loadControl r s.psw.toWord s

/-- R451 `LCPR,R`: Load Register with...of PSD, current Program Register. -/
def execLcpr (r : Reg) (s : State) : Res State := tentative <| loadControl r (s.pc + 1) s

/-- R452 `SCCC,R`: Select, current Condition Codes in PSD. -/
def execSccc (r : Reg) (s : State) : Res State := selectCodes r s

/-- R453 `TDR`: Transfer and Reset, overflow status history in PSD. -/
def execTdr (_s : State) : Res State := .refused .overflowTransfer

/-- R454 `HLT`: Halt, program execution. -/
def execHlt (s : State) : Res State := privileged s <| .next ({ s with run := .halted }.advance 1)

/-- R455 `EVMO`: Enter Virtual Mode, of CPU execution. -/
def execEvmo (s : State) : Res State := privileged s <| .refused .virtualMode

/-- R456 `MRRB,R,X`: Move, R-block section of CT file to M-file. -/
def execMrrbRm (_r _x : Reg) (s : State) : Res State := privileged s <| .refused .contextFile

/-- R457 `MRRB,R,X`: Move, M-file to R-block section of CT file. -/
def execMrrbMr (_r _x : Reg) (s : State) : Res State := privileged s <| .refused .contextFile

/-- R458 `SCRB`: Select (R-block), current R-block in PSD. -/
def execScrb (s : State) : Res State := privileged s <| .refused .registerBlock

/-- R459 `MABI`: Memory Allocation Initialize, memory allocation block initialize. -/
def execMabi (s : State) : Res State := privileged s <| .refused .mapImage

/-- R460 `AMEM,RP`: Memory Allocation, allocate pages to map. -/
def execAmem (_r : Reg) (s : State) : Res State := privileged s <| .refused .mapImage

/-- R461 `DMEH,RP`: Memory Allocation, deallocate pages from map image. -/
def execDmeh (_r : Reg) (s : State) : Res State := privileged s <| .refused .mapImage

/-- R462 `LIMP,RP`: Load (map image), IM image into hardware map. -/
def execLimp (_r : Reg) (s : State) : Res State := privileged s <| .refused .mapImage

/-- R463 `LOMP,RP`: Load (map image), OM image into hardware map. -/
def execLomp (_r : Reg) (s : State) : Res State := privileged s <| .refused .mapImage

/-- R464 `ZIMP,RP`: Zero Section, of instruction map. -/
def execZimp (_r : Reg) (s : State) : Res State := privileged s <| .refused .mapImage

/-- R465 `ZOMP,RP`: Zero Section, of operand map. -/
def execZomp (_r : Reg) (s : State) : Res State := privileged s <| .refused .mapImage

/-- R466 `SIOM,R`: Select (operand map), another program's IM as current OM. -/
def execSiom (_r : Reg) (s : State) : Res State := privileged s <| .refused .mapImage

/-- R467 `SOOM,R`: Select (operand map), another program's OM as current OM. -/
def execSoom (_r : Reg) (s : State) : Res State := privileged s <| .refused .mapImage

/-- R468 `SZOM`: Select (operand map), map zero as current OM. -/
def execSzom (s : State) : Res State := privileged s <| .refused .mapImage

/-- R469 `LDVM,R,RP`: Load Register (privileged), from M (via map image). -/
def execLdvm (_r _p : Reg) (s : State) : Res State := privileged s <| .refused .mapImage

/-- R470 `LDAM,R,RP`: Load Register (privileged), from actual M. -/
def execLdam (r p : Reg) (s : State) : Res State := privileged s <| tentative <| loadActual r p s

/-- R471 `STVM,R,RP`: Store Register (privileged), into M (via map image). -/
def execStvm (_r _p : Reg) (s : State) : Res State := privileged s <| .refused .mapImage

/-- R472 `STAN,R,RP`: Store Register (privileged), into actual M. -/
def execStan (r p : Reg) (s : State) : Res State := privileged s <| tentative <| storeActual r p s

/-- R473 `SPR`: Set (protect registers), protect registers. -/
def execSpr (s : State) : Res State := privileged s <| .refused .protectRegister

/-- R474 `SGP,PR`: Set (protect registers), global protect register. -/
def execSgp (_pr : Nibble) (s : State) : Res State := privileged s <| .refused .protectRegister

/-- R475 `SLP,PR`: Set (protect registers), lower protect register. -/
def execSlp (_pr : Nibble) (s : State) : Res State := privileged s <| .refused .protectRegister

/-- R476 `SUP,PR`: Set (protect registers), upper protect register. -/
def execSup (_pr : Nibble) (s : State) : Res State := privileged s <| .refused .protectRegister

end Sys2Proof.Machine
end

