-- ==== Sys2Proof/Machine/Floating.lean ====
section
/-! DEFINITION. The floating-point instructions (spec/47_floating.md R415-R441, R490, R491): the arithmetic is the configuration's. -/

namespace Sys2Proof.Machine

/-- The four operations (R491). -/
inductive FloatOp where
  | add
  | subtract
  | multiply
  | divide
  deriving DecidableEq, Repr

/-- The configuration's function for an operation at a width; the first operand is the destination register (R491). -/
def FloatOp.apply (op : FloatOp) (w : Nat) (a b : BitVec w) : FpResult w :=
  match op with
  | .add => Config.fpAdd w a b
  | .subtract => Config.fpSub w a b
  | .multiply => Config.fpMul w a b
  | .divide => Config.fpDiv w a b

/-- A floating row's end: the result and all four codes as the configuration gives them; OH is left as it is (R415). -/
def floatResult (k : Width) (r : Reg) (x : FpResult k.bits) (words : Nat) (s : State) : State :=
  ((s.setCodes x.codes).setReg k r x.value).advance words

/-- The register rows (R415-R417 and their kin). -/
def floatRegister (k : Width) (op : FloatOp) (r q : Reg) (s : State) : Res State :=
  Res.bind (readReg k r s) fun a => Res.bind (readReg k q s) fun b => .next (floatResult k r (op.apply k.bits a b) 1 s)

/-- The memory rows (R418-R420 and their kin); I = 1 refuses. -/
def floatMemory (k : Width) (op : FloatOp) (r : Reg) (m : LongAddress) (s : State) : Res State :=
  if m.ind then .refused .floatingIndirect
  else Res.bind (readReg k r s) fun a => Res.bind (readMem k (.long m) s) fun b =>
    .next (floatResult k r (op.apply k.bits a b) 2 s)

/-- The conversions (R439-R441), all to a register pair. -/
def convert (k : Width) (f : BitVec k.bits → FpResult 32) (r q : Reg) (s : State) : Res State :=
  Res.bind (readReg .double r s) fun _ => Res.bind (readReg k q s) fun b => .next (floatResult .double r (f b) 1 s)

/-- R415 `FAR,RP,SP`: Add Register, to R double. -/
def execFar (r q : Reg) (s : State) : Res State := floatRegister .double .add r q s

/-- R416 `FARD,RT,ST`: Add Register, to R triple. -/
def execFard (r q : Reg) (s : State) : Res State := floatRegister .triple .add r q s

/-- R417 `FARQ,RQ,SQ`: Add Register, to R quadruple. -/
def execFarq (r q : Reg) (s : State) : Res State := floatRegister .quad .add r q s

/-- R418 `FAM,RP,X A`: Add Memory, to R double. -/
def execFam (r : Reg) (m : LongAddress) (s : State) : Res State := floatMemory .double .add r m s

/-- R419 `FAMD,RT,X A`: Add Memory, to R triple. -/
def execFamd (r : Reg) (m : LongAddress) (s : State) : Res State := floatMemory .triple .add r m s

/-- R420 `FAMQ,RQ,X A`: Add Memory, to R quadruple. -/
def execFamq (r : Reg) (m : LongAddress) (s : State) : Res State := floatMemory .quad .add r m s

/-- R421 `FSR,RP,SP`: Subtract Register, from R double. -/
def execFsr (r q : Reg) (s : State) : Res State := floatRegister .double .subtract r q s

/-- R422 `FSRD,RT,ST`: Subtract Register, from R triple. -/
def execFsrd (r q : Reg) (s : State) : Res State := floatRegister .triple .subtract r q s

/-- R423 `FSRQ,RQ,SQ`: Subtract Register, from R quadruple. -/
def execFsrq (r q : Reg) (s : State) : Res State := floatRegister .quad .subtract r q s

/-- R424 `FSM,RP,X A`: Subtract Memory, from R double. -/
def execFsm (r : Reg) (m : LongAddress) (s : State) : Res State := floatMemory .double .subtract r m s

/-- R425 `FSMD,RT,X A`: Subtract Memory, from R triple. -/
def execFsmd (r : Reg) (m : LongAddress) (s : State) : Res State := floatMemory .triple .subtract r m s

/-- R426 `FSMQ,RQ,X A`: Subtract Memory, from R quadruple. -/
def execFsmq (r : Reg) (m : LongAddress) (s : State) : Res State := floatMemory .quad .subtract r m s

/-- R427 `FMR,RP,SP`: Multiply Register, by R double. -/
def execFmr (r q : Reg) (s : State) : Res State := floatRegister .double .multiply r q s

/-- R428 `FMRD,RT,ST`: Multiply Register, by R triple. -/
def execFmrd (r q : Reg) (s : State) : Res State := floatRegister .triple .multiply r q s

/-- R429 `FMRQ,RQ,SQ`: Multiply Register, by R quadruple. -/
def execFmrq (r q : Reg) (s : State) : Res State := floatRegister .quad .multiply r q s

/-- R430 `FMM,RP,X A`: Multiply Memory, by R double. -/
def execFmm (r : Reg) (m : LongAddress) (s : State) : Res State := floatMemory .double .multiply r m s

/-- R431 `FMMD,RT,X A`: Multiply Memory, by R triple. -/
def execFmmd (r : Reg) (m : LongAddress) (s : State) : Res State := floatMemory .triple .multiply r m s

/-- R432 `FMMQ,RQ,X A`: Multiply Memory, by R quadruple. -/
def execFmmq (r : Reg) (m : LongAddress) (s : State) : Res State := floatMemory .quad .multiply r m s

/-- R433 `FDR,RP,SP`: Divide...by Register, R double. -/
def execFdr (r q : Reg) (s : State) : Res State := floatRegister .double .divide r q s

/-- R434 `FDRD,RT,ST`: Divide...by Register, R triple. -/
def execFdrd (r q : Reg) (s : State) : Res State := floatRegister .triple .divide r q s

/-- R435 `FDRQ,RQ,SQ`: Divide...by Register, R quadruple. -/
def execFdrq (r q : Reg) (s : State) : Res State := floatRegister .quad .divide r q s

/-- R436 `FDM,RP,X A`: Divide...by Memory, R double. -/
def execFdm (r : Reg) (m : LongAddress) (s : State) : Res State := floatMemory .double .divide r m s

/-- R437 `FDMD,RT,X A`: Divide...by Memory, R triple. -/
def execFdmd (r : Reg) (m : LongAddress) (s : State) : Res State := floatMemory .triple .divide r m s

/-- R438 `FDMQ,RQ,X A`: Divide...by Memory, R quadruple. -/
def execFdmq (r : Reg) (m : LongAddress) (s : State) : Res State := floatMemory .quad .divide r m s

/-- R439 `CDIE,RP,SP`: Convert Double Precision Integer, to floating point. -/
def execCdie (r q : Reg) (s : State) : Res State := convert .double Config.fpFromInt32 r q s

/-- R440 `CFDI,RP,SP`: Convert Floating Point, to double precision integer. -/
def execCfdi (r q : Reg) (s : State) : Res State := convert .double Config.fpToInt32 r q s

/-- R441 `COFF,RP,SQ`: Convert Floating Point, quadruple to floating point. -/
def execCoff (r q : Reg) (s : State) : Res State := convert .quad Config.fpNarrow64 r q s

end Sys2Proof.Machine
end

