-- ==== Sys2Proof/Machine/InterruptIo.lean ====
section
/-! DEFINITION. The interrupt and input/output instructions (spec/49_interrupt_io.md R477-R489). -/

namespace Sys2Proof.Machine

/-- The three latches of a level (spec/10_state.md R35). -/
inductive LatchKind where
  | enable
  | active
  | request
  deriving DecidableEq, Repr

/-- One latch of one kind set (R477-R479). -/
def State.setLatchOf (s : State) (kind : LatchKind) (level : BitVec 4) : State :=
  match kind with
  | .enable => { s with ie := setLatch s.ie level }
  | .active => { s with ia := setLatch s.ia level }
  | .request => { s with ir := setLatch s.ir level }

/-- One latch of one kind reset (R480-R482). -/
def State.resetLatchOf (s : State) (kind : LatchKind) (level : BitVec 4) : State :=
  match kind with
  | .enable => { s with ie := resetLatch s.ie level }
  | .active => { s with ia := resetLatch s.ia level }
  | .request => { s with ir := resetLatch s.ir level }

/-- Input Status (R485): the word and the four codes are the environment's. -/
def inputStatus (j : BitVec 2) (r : Reg) (u : Nibble) (s : State) : Res State :=
  Res.bind (readReg .single r s) fun _ =>
    let x := Config.inputStatus s.draws j u
    .next (((s.setReported x.codes).setReg .single r x.value).advance 1)

/-- Input Data (R486): the word is the environment's, the codes are the class of its right byte. -/
def inputData (j : BitVec 2) (r : Reg) (u : Nibble) (s : State) : Res State :=
  Res.bind (readReg .single r s) fun _ =>
    let v := Config.inputData s.draws j u
    .next ((((s.setCodes (classify (v.extractLsb' 0 8))).drew).setReg .single r v).advance 1)

/-- Output Command and Output Data (R487, R488): the environment receives the word in R. -/
def outputWord (event : Word → OutputEvent) (r : Reg) (s : State) : Res State :=
  Res.bind (readReg .single r s) fun v => .next ({ s with outputs := event v :: s.outputs }.advance 1)

/-- R477 `SIE,L`: Set Interrupt Latch, enable. -/
def execSie (l : Nibble) (s : State) : Res State := privileged s <| .next ((s.setLatchOf .enable l).advance 1)

/-- R478 `SIA,L`: Set Interrupt Latch, active. -/
def execSia (l : Nibble) (s : State) : Res State := privileged s <| .next ((s.setLatchOf .active l).advance 1)

/-- R479 `SIR,L`: Set Interrupt Latch, request. -/
def execSir (l : Nibble) (s : State) : Res State := privileged s <| .next ((s.setLatchOf .request l).advance 1)

/-- R480 `RIE,L`: Reset Interrupt Latch, enable. -/
def execRie (l : Nibble) (s : State) : Res State := privileged s <| .next ((s.resetLatchOf .enable l).advance 1)

/-- R481 `RIA,L`: Reset Interrupt Latch, active. -/
def execRia (l : Nibble) (s : State) : Res State := privileged s <| .next ((s.resetLatchOf .active l).advance 1)

/-- R482 `RIR,L`: Reset Interrupt Latch, request. -/
def execRir (l : Nibble) (s : State) : Res State := privileged s <| .next ((s.resetLatchOf .request l).advance 1)

/-- R483 `CAR,RP`: Clear Interrupt, active latch and return. -/
def execCar (r : Reg) (s : State) : Res State := returnFromInterrupt false r s

/-- R484 `CIR,RP`: Clear Interrupt, active and request latch and return. -/
def execCir (r : Reg) (s : State) : Res State := returnFromInterrupt true r s

/-- R485 `ISi,R,U`: Input Status, from I/O group i. -/
def execIsi (j : BitVec 2) (r : Reg) (u : Nibble) (s : State) : Res State := privileged s <| inputStatus j r u s

/-- R486 `IDi,R,U`: Input Data, from I/O group i. -/
def execIdi (j : BitVec 2) (r : Reg) (u : Nibble) (s : State) : Res State := privileged s <| inputData j r u s

/-- R487 `OCi,R,U`: Output Command, to I/O group i. -/
def execOci (j : BitVec 2) (r : Reg) (u : Nibble) (s : State) : Res State :=
  privileged s <| outputWord (fun v => .command j u v) r s

/-- R488 `ODi,R,U`: Output Data, to I/O group i. -/
def execOdi (j : BitVec 2) (r : Reg) (u : Nibble) (s : State) : Res State :=
  privileged s <| outputWord (fun v => .data j u v) r s

/-- R489 `DMPI,RP,CH`: Initialize, Direct Memory Processor. -/
def execDmpi (_r : Reg) (_ch : Nibble) (s : State) : Res State := privileged s <| .refused .directMemoryProcessor

end Sys2Proof.Machine
end

