-- ==== Sys2Proof/Machine/Logical.lean ====
section
/-! DEFINITION. The logical instructions (spec/42_logical.md R250-R292). -/

namespace Sys2Proof.Machine

/-- R250 `ZBR,R,BIT`: Zero Bit, in R. -/
def execZbr (r : Reg) (n : Nibble) (s : State) : Res State := toRegister .single .zeroBit r (.const (bitmask n)) (.seq 1) s

/-- R251 `ZBRB,R,BIT B`: Zero Bit, in R, BR if nonzero. -/
def execZbrb (r : Reg) (n : Nibble) (b : Word) (s : State) : Res State :=
  toRegister .single .zeroBit r (.const (bitmask n)) (.nonzero 2 b) s

/-- R252 `ZBMM*,BIT,X A`: Zero Bit, in M. -/
def execZbmm (n : Nibble) (m : LongAddress) (s : State) : Res State :=
  toMemory .zeroBit (.long m) (.const (bitmask n)) (.seq 2) s

/-- R253 `ZMMB*,BIT,X A,B`: Zero Bit, in M, BR if nonzero. -/
def execZmmb (n : Nibble) (m : LongAddress) (b : Word) (s : State) : Res State :=
  toMemory .zeroBit (.long m) (.const (bitmask n)) (.nonzero 3 b) s

/-- R254 `ZBSM,BIT,D`: Zero Bit, in M Short Displaced. -/
def execZbsm (n d : Nibble) (s : State) : Res State := toMemory .zeroBit (.displaced d) (.const (bitmask n)) (.seq 1) s

/-- R255 `ZBSB,BIT,D B`: Zero Bit, in M Short Displaced, BR if nonzero. -/
def execZbsb (n d : Nibble) (b : Word) (s : State) : Res State :=
  toMemory .zeroBit (.displaced d) (.const (bitmask n)) (.nonzero 2 b) s

/-- R256 `ZBXM,BIT,X`: Zero Bit, in M Short Indexed. -/
def execZbxm (n : Nibble) (x : Reg) (s : State) : Res State := toMemory .zeroBit (.indexed x) (.const (bitmask n)) (.seq 1) s

/-- R257 `ZBXB,BIT,X B`: Zero Bit, in M Short Indexed, BR if nonzero. -/
def execZbxb (n : Nibble) (x : Reg) (b : Word) (s : State) : Res State :=
  toMemory .zeroBit (.indexed x) (.const (bitmask n)) (.nonzero 2 b) s

/-- R258 `ETR,R,S`: Extract (AND) Register, from R. -/
def execEtr (r q : Reg) (s : State) : Res State := toRegister .single .extract r (.reg q) (.seq 1) s

/-- R259 `ETRB,R,S B`: Extract (AND) Register, from R, BR if nonzero. -/
def execEtrb (r q : Reg) (b : Word) (s : State) : Res State := toRegister .single .extract r (.reg q) (.nonzero 2 b) s

/-- R260 `ETMM*,R,X A`: Extract (AND) Register, from M. -/
def execEtmm (r : Reg) (m : LongAddress) (s : State) : Res State := toMemory .extract (.long m) (.reg r) (.seq 2) s

/-- R261 `ETMB*,R,X A,B`: Extract (AND) Register, from M, BR if nonzero. -/
def execEtmb (r : Reg) (m : LongAddress) (b : Word) (s : State) : Res State :=
  toMemory .extract (.long m) (.reg r) (.nonzero 3 b) s

/-- R262 `ETSM,R,D`: Extract (AND) Register, from M Short Displaced. -/
def execEtsm (r : Reg) (d : Nibble) (s : State) : Res State := toMemory .extract (.displaced d) (.reg r) (.seq 1) s

/-- R263 `ETSB,R,D B`: Extract (AND) Register, from M Short Displaced, BR if nonzero. -/
def execEtsb (r : Reg) (d : Nibble) (b : Word) (s : State) : Res State :=
  toMemory .extract (.displaced d) (.reg r) (.nonzero 2 b) s

/-- R264 `ETXM,R,X`: Extract (AND) Register, from M Short Indexed. -/
def execEtxm (r x : Reg) (s : State) : Res State := toMemory .extract (.indexed x) (.reg r) (.seq 1) s

/-- R265 `ETXB,R,X B`: Extract (AND) Register, from M Short Indexed, BR if nonzero. -/
def execEtxb (r x : Reg) (b : Word) (s : State) : Res State := toMemory .extract (.indexed x) (.reg r) (.nonzero 2 b) s

/-- R266 `ETM*,R,X A`: Extract (AND) Memory, from R. -/
def execEtm (r : Reg) (m : LongAddress) (s : State) : Res State := toRegister .single .extract r (.mem (.long m)) (.seq 2) s

/-- R267 `ETI,R V`: Extract (AND) Memory, from R Immediate. -/
def execEti (r : Reg) (v : Word) (s : State) : Res State := toRegister .single .extract r (.const v) (.seq 2) s

/-- R268 `ETS,R,D`: Extract (AND) Memory, from R Short Displaced. -/
def execEts (r : Reg) (d : Nibble) (s : State) : Res State := toRegister .single .extract r (.mem (.displaced d)) (.seq 1) s

/-- R269 `ETX,R,X`: Extract (AND) Memory, from R Short Indexed. -/
def execEtx (r x : Reg) (s : State) : Res State := toRegister .single .extract r (.mem (.indexed x)) (.seq 1) s

/-- R270 `OBR,R,BIT`: OR Bit, in R. -/
def execObr (r : Reg) (n : Nibble) (s : State) : Res State := toRegister .single .setBit r (.const (bitmask n)) (.seq 1) s

/-- R271 `OBRB,R,BIT B`: OR Bit, in R, BR unconditionally. -/
def execObrb (r : Reg) (n : Nibble) (b : Word) (s : State) : Res State :=
  toRegister .single .setBit r (.const (bitmask n)) (.always b) s

/-- R272 `OBMM*,BIT,X A`: OR Bit, in M. -/
def execObmm (n : Nibble) (m : LongAddress) (s : State) : Res State :=
  toMemory .setBit (.long m) (.const (bitmask n)) (.seq 2) s

/-- R273 `OBSM,BIT,D`: OR Bit, in M Short Displaced. -/
def execObsm (n d : Nibble) (s : State) : Res State := toMemory .setBit (.displaced d) (.const (bitmask n)) (.seq 1) s

/-- R274 `OBXM,BIT,X`: OR Bit, in M Short Indexed. -/
def execObxm (n : Nibble) (x : Reg) (s : State) : Res State := toMemory .setBit (.indexed x) (.const (bitmask n)) (.seq 1) s

/-- R275 `ORR,R,S`: OR Register, and R. -/
def execOrr (r q : Reg) (s : State) : Res State := toRegister .single .inclusiveOr r (.reg q) (.seq 1) s

/-- R276 `ORRB,R,S B`: OR Register, and R, BR if nonzero. -/
def execOrrb (r q : Reg) (b : Word) (s : State) : Res State := toRegister .single .inclusiveOr r (.reg q) (.nonzero 2 b) s

/-- R277 `ORMM*,R,X A`: OR Register, and M. -/
def execOrmm (r : Reg) (m : LongAddress) (s : State) : Res State := toMemory .inclusiveOr (.long m) (.reg r) (.seq 2) s

/-- R278 `ORSM,R,D`: OR Register, and M Short Displaced. -/
def execOrsm (r : Reg) (d : Nibble) (s : State) : Res State := toMemory .inclusiveOr (.displaced d) (.reg r) (.seq 1) s

/-- R279 `ORXM,R,X`: OR Register, and M Short Indexed. -/
def execOrxm (r x : Reg) (s : State) : Res State := toMemory .inclusiveOr (.indexed x) (.reg r) (.seq 1) s

/-- R280 `ORM*,R,X A`: OR Memory, and R. -/
def execOrm (r : Reg) (m : LongAddress) (s : State) : Res State := toRegister .single .inclusiveOr r (.mem (.long m)) (.seq 2) s

/-- R281 `ORI,R V`: OR Memory, and R Immediate. -/
def execOri (r : Reg) (v : Word) (s : State) : Res State := toRegister .single .inclusiveOr r (.const v) (.seq 2) s

/-- R282 `ORS,R,D`: OR Memory, and R Short Displaced. -/
def execOrs (r : Reg) (d : Nibble) (s : State) : Res State := toRegister .single .inclusiveOr r (.mem (.displaced d)) (.seq 1) s

/-- R283 `ORX,R,X`: OR Memory, and R Short Indexed. -/
def execOrx (r x : Reg) (s : State) : Res State := toRegister .single .inclusiveOr r (.mem (.indexed x)) (.seq 1) s

/-- R284 `XBR,R,BIT`: Exclusive OR Bit, in R. -/
def execXbr (r : Reg) (n : Nibble) (s : State) : Res State := toRegister .single .flipBit r (.const (bitmask n)) (.seq 1) s

/-- R285 `XBRB,R,BIT B`: Exclusive OR Bit, in R, BR in nonzero. -/
def execXbrb (r : Reg) (n : Nibble) (b : Word) (s : State) : Res State :=
  toRegister .single .flipBit r (.const (bitmask n)) (.nonzero 2 b) s

/-- R286 `XOR,R,S`: Exclusive OR Register, and R. -/
def execXor (r q : Reg) (s : State) : Res State := toRegister .single .exclusiveOr r (.reg q) (.seq 1) s

/-- R287 `XORB,R,S B`: Exclusive OR Register, and R, BR if nonzero. -/
def execXorb (r q : Reg) (b : Word) (s : State) : Res State := toRegister .single .exclusiveOr r (.reg q) (.nonzero 2 b) s

/-- R288 `XOM*,R,X A`: Exclusive OR Memory, and R. -/
def execXom (r : Reg) (m : LongAddress) (s : State) : Res State := toRegister .single .exclusiveOr r (.mem (.long m)) (.seq 2) s

/-- R289 `XOI,R V`: Exclusive OR Memory, and R Immediate. -/
def execXoi (r : Reg) (v : Word) (s : State) : Res State := toRegister .single .exclusiveOr r (.const v) (.seq 2) s

/-- R290 `XOS,R,D`: Exclusive OR Memory, and R Short Displaced. -/
def execXos (r : Reg) (d : Nibble) (s : State) : Res State := toRegister .single .exclusiveOr r (.mem (.displaced d)) (.seq 1) s

/-- R291 `XOX,R,X`: Exclusive OR Memory, and R Short Indexed. -/
def execXox (r x : Reg) (s : State) : Res State := toRegister .single .exclusiveOr r (.mem (.indexed x)) (.seq 1) s

/-- R292 `TOR,R,S`: Transfer One's Complement, R to R. -/
def execTor (r q : Reg) (s : State) : Res State := toRegister .single .complement r (.reg q) (.seq 1) s

end Sys2Proof.Machine
end

