-- ==== Sys2Proof/Machine/Move.lean ====
section
/-! DEFINITION. The move instructions (spec/40_move.md R200-R234). -/

namespace Sys2Proof.Machine

/-- Load Byte (R202): the byte of the BYTE mode, in bits 8-15, with the other byte cleared; the codes are its class. -/
def loadByte (r x : Reg) (s : State) : Res State :=
  Res.bind (readReg .single r s) fun _ => Res.bind (byteAddress x s) fun at_ => Res.bind (loadWord at_.1 s) fun v =>
    let byte := if at_.2 then v.extractLsb' 8 8 else v.extractLsb' 0 8
    .next (((s.setCodes (classify byte)).setReg .single r (byte.zeroExtend 16)).advance 1)

/-- Store Byte (R212): the word is read, one byte is replaced by the right byte of R, and the word is written (R77). -/
def storeByte (r x : Reg) (s : State) : Res State :=
  Res.bind (readReg .single r s) fun b => Res.bind (byteAddress x s) fun at_ => Res.bind (loadWord at_.1 s) fun v =>
    let byte := b.extractLsb' 0 8
    let v' := if at_.2 then byte ++ v.extractLsb' 0 8 else v.extractLsb' 8 8 ++ byte
    Res.bind (storeWord at_.1 v' s) fun t => .next (t.advance 1)

/-- How many registers a file row moves: R through 15 (R209, D23). -/
def fileSize (r : Reg) : Nat := 16 - r.toNat

/-- Load File (R209-R211): all words are read before any register is written (D51). -/
def loadFile (o : MemOperand) (r : Reg) (words : Nat) (s : State) : Res State :=
  Res.bind (readReg .single r s) fun _ => Res.bind (effectiveAddress o s) fun ea =>
    Res.bind (loadWords ea (fileSize r) s) fun vs => .next ({ s with regs := s.regs.setFile r vs }.advance words)

/-- Store File (R219-R221). -/
def storeFile (o : MemOperand) (r : Reg) (words : Nat) (s : State) : Res State :=
  Res.bind (readReg .single r s) fun _ => Res.bind (effectiveAddress o s) fun ea =>
    Res.bind (storeWords ea (s.regs.file r (fileSize r)) s) fun t => .next (t.advance words)

/-- Store Immediate (R215): the word after the instruction's own first word is written (R82). -/
def storeImmediate (r : Reg) (s : State) : Res State :=
  Res.bind (readReg .single r s) fun v => Res.bind (storeWord (s.pc + 1) v s) fun t => .next (t.advance 2)

/-- A byte of a word (R61): upper is left, lower is right. -/
inductive ByteSide where
  | upper
  | lower
  deriving DecidableEq, Repr

/-- The byte on one side (R61). -/
def byteOf (side : ByteSide) (w : Word) : Byte :=
  match side with
  | .upper => w.extractLsb' 8 8
  | .lower => w.extractLsb' 0 8

/-- A word with one byte given and the other as `byte_move_fill` says: cleared, or kept from the old word (D21). -/
def placeByte (side : ByteSide) (b : Byte) (old : Word) : Word :=
  match Config.byteMoveFill, side with
  | .clear, .upper => b ++ 0#8
  | .clear, .lower => 0#8 ++ b
  | .keep, .upper => b ++ byteOf .lower old
  | .keep, .lower => byteOf .upper old ++ b

/-- The byte moves (R224-R227): a byte of S goes to a byte of R. To the lower byte the codes are the class of the right byte of
the result; to the upper byte the codes are drawn. -/
def moveByte (source dest : ByteSide) (r q : Reg) (s : State) : Res State :=
  Res.bind (readReg .single r s) fun a => Res.bind (readReg .single q s) fun b =>
    let v := placeByte dest (byteOf source b) a
    let t := match dest with
      | .lower => s.setCodes (classify (byteOf .lower v))
      | .upper => s.setAllDrawn
    .next ((t.setReg .single r v).advance 1)

/-- Interchange Bytes (R228): the codes are the class of the right byte of the result. -/
def interchangeBytes (r q : Reg) (s : State) : Res State :=
  Res.bind (readReg .single r s) fun _ => Res.bind (readReg .single q s) fun b =>
    let v := byteOf .lower b ++ byteOf .upper b
    .next (((s.setCodes (classify (byteOf .lower v))).setReg .single r v).advance 1)

/-- Interchange R and M (R229). -/
def interchangeMemory (r : Reg) (m : LongAddress) (s : State) : Res State :=
  Res.bind (readReg .single r s) fun a => Res.bind (longAddress m s) fun ea => Res.bind (loadWord ea s) fun v =>
    Res.bind (storeWord ea a s) fun t => .next ((t.setReg .single r v).advance 2)

/-- Interchange R and R (R230). -/
def interchangeRegisters (r q : Reg) (s : State) : Res State :=
  Res.bind (readReg .single r s) fun a => Res.bind (readReg .single q s) fun b =>
    .next (((s.setReg .single r b).setReg .single q a).advance 1)

/-- R200 `LBR,R,BIT`: Load Bit, in R. -/
def execLbr (r : Reg) (n : Nibble) (s : State) : Res State := toRegister .single .transfer r (.const (bitmask n)) (.seq 1) s

/-- R201 `LBRB,R,BIT B`: Load Bit, in R, BR unconditionally. -/
def execLbrb (r : Reg) (n : Nibble) (b : Word) (s : State) : Res State :=
  toRegister .single .transfer r (.const (bitmask n)) (.always b) s

/-- R202 `LBX,R,X`: Load Byte, from M. -/
def execLbx (r x : Reg) (s : State) : Res State := tentative <| loadByte r x s

/-- R203 `LDM*,R,X A`: Load Register, from M. -/
def execLdm (r : Reg) (m : LongAddress) (s : State) : Res State := toRegister .single .copy r (.mem (.long m)) (.seq 2) s

/-- R204 `LDMD*,RP,X A`: Load Register, from M double. -/
def execLdmd (r : Reg) (m : LongAddress) (s : State) : Res State := toRegister .double .copy r (.mem (.long m)) (.seq 2) s

/-- R205 `LDT,R V`: Load Register, from M Immediate. -/
def execLdt (r : Reg) (v : Word) (s : State) : Res State := toRegister .single .copy r (.const v) (.seq 2) s

/-- R206 `LDS,R,D`: Load Register, from M Short Displaced. -/
def execLds (r : Reg) (d : Nibble) (s : State) : Res State := toRegister .single .copy r (.mem (.displaced d)) (.seq 1) s

/-- R207 `LDX,R,X`: Load Register, from M Short Indexed. -/
def execLdx (r x : Reg) (s : State) : Res State := toRegister .single .copy r (.mem (.indexed x)) (.seq 1) s

/-- R208 `LDXD,RP,X`: Load Register, from M Short Indexed double. -/
def execLdxd (r x : Reg) (s : State) : Res State := toRegister .double .copy r (.mem (.indexed x)) (.seq 1) s

/-- R209 `LFM*,R,X A`: Load File, from M. -/
def execLfm (r : Reg) (m : LongAddress) (s : State) : Res State := tentative <| loadFile (.long m) r 2 s

/-- R210 `LFS,R,D`: Load File, from M Short Displaced. -/
def execLfs (r : Reg) (d : Nibble) (s : State) : Res State := tentative <| loadFile (.displaced d) r 1 s

/-- R211 `LFX,R,X`: Load File, from M Short Indexed. -/
def execLfx (r x : Reg) (s : State) : Res State := tentative <| loadFile (.indexed x) r 1 s

/-- R212 `SBX,R,X`: Store Byte, in M. -/
def execSbx (r x : Reg) (s : State) : Res State := tentative <| storeByte r x s

/-- R213 `STM*,R,X A`: Store Register, in M. -/
def execStm (r : Reg) (m : LongAddress) (s : State) : Res State := storeRegister .single (.long m) r 2 s

/-- R214 `STMD*,RP,X A`: Store Register, in M double. -/
def execStmd (r : Reg) (m : LongAddress) (s : State) : Res State := storeRegister .double (.long m) r 2 s

/-- R215 `STI,R V`: Store Register, in M Immediate. -/
def execSti (r : Reg) (_v : Word) (s : State) : Res State := storeImmediate r s

/-- R216 `STS,R,D`: Store Register, in M Short Displaced. -/
def execSts (r : Reg) (d : Nibble) (s : State) : Res State := storeRegister .single (.displaced d) r 1 s

/-- R217 `STX,R,X`: Store Register, in M Short Indexed. -/
def execStx (r x : Reg) (s : State) : Res State := storeRegister .single (.indexed x) r 1 s

/-- R218 `STXD,RP,X`: Store Register, in M Short Indexed double. -/
def execStxd (r x : Reg) (s : State) : Res State := storeRegister .double (.indexed x) r 1 s

/-- R219 `SFM*,R,X A`: Store File, in M. -/
def execSfm (r : Reg) (m : LongAddress) (s : State) : Res State := tentative <| storeFile (.long m) r 2 s

/-- R220 `SFS,R,D`: Store File, in M Short Displaced. -/
def execSfs (r : Reg) (d : Nibble) (s : State) : Res State := tentative <| storeFile (.displaced d) r 1 s

/-- R221 `SFX,R,X`: Store File, in M Short Indexed. -/
def execSfx (r x : Reg) (s : State) : Res State := tentative <| storeFile (.indexed x) r 1 s

/-- R222 `PLM*,R,X A,NR,NW`: Stack Manipulation, pull M into R(s). -/
def execPlm (_r : Reg) (_m : LongAddress) (_counts : Word) (_s : State) : Res State := .refused .stackDescriptor

/-- R223 `PSM*,R,X A,NR,NW`: Stack Manipulation, push R(s) into M. -/
def execPsm (_r : Reg) (_m : LongAddress) (_counts : Word) (_s : State) : Res State := .refused .stackDescriptor

/-- R224 `MLR,R,S`: Move Lower Byte, R to R. -/
def execMlr (r q : Reg) (s : State) : Res State := tentative <| moveByte .lower .lower r q s

/-- R225 `MBR,R,S`: Move Lower Byte, right R to R. -/
def execMbr (r q : Reg) (s : State) : Res State := tentative <| moveByte .upper .lower r q s

/-- R226 `MUR,R,S`: Move Upper Byte, R to R. -/
def execMur (r q : Reg) (s : State) : Res State := tentative <| moveByte .upper .upper r q s

/-- R227 `MBL,R,S`: Move Upper Byte, left R to R. -/
def execMbl (r q : Reg) (s : State) : Res State := tentative <| moveByte .lower .upper r q s

/-- R228 `IBR,R,S`: Interchange Bytes, R to R. -/
def execIbr (r q : Reg) (s : State) : Res State := interchangeBytes r q s

/-- R229 `IRM*,R,X A`: Interchange Registers, R and M. -/
def execIrm (r : Reg) (m : LongAddress) (s : State) : Res State := interchangeMemory r m s

/-- R230 `IRR,R,S`: Interchange Registers, R and R. -/
def execIrr (r q : Reg) (s : State) : Res State := interchangeRegisters r q s

/-- R231 `TRR,R,S`: Transfer Register, to R. -/
def execTrr (r q : Reg) (s : State) : Res State := toRegister .single .transfer r (.reg q) (.seq 1) s

/-- R232 `TRRB,R,S B`: Transfer Register, to R, BR if nonzero. -/
def execTrrb (r q : Reg) (b : Word) (s : State) : Res State := toRegister .single .transfer r (.reg q) (.nonzero 2 b) s

/-- R233 `TRRD,RP,SP`: Transfer Register, to R double. -/
def execTrrd (r q : Reg) (s : State) : Res State := toRegister .double .transfer r (.reg q) (.seq 1) s

/-- R234 `TRRQ,RQ,SQ`: Transfer Register, to R quadruple. -/
def execTrrq (r q : Reg) (s : State) : Res State := toRegister .quad .transfer r (.reg q) (.seq 1) s

end Sys2Proof.Machine
end

