-- ==== Sys2Proof/Machine/MultiplyDivide.lean ====
section
/-! DEFINITION. The multiply, divide, two's complement and sign-extension instructions (spec/46_multiply_divide.md R397-R414). -/

namespace Sys2Proof.Machine

/-- The pair an integer multiply or divide names: R even, 2..14 (D24). -/
def readPair (r : Reg) (s : State) : Res (BitVec 32) :=
  if r.getLsbD 0 then .refused .oddPair else readReg .double r s

/-- Multiply (R397-R402): the signed product of the odd register and the operand replaces the pair; N and Z from it, O and C
drawn. -/
def multiply (r : Reg) (src : Src .single) (words : Nat) (s : State) : Res State :=
  Res.bind (readPair r s) fun pair => Res.bind (src.read s) fun b =>
    let p := BitVec.ofInt 32 ((pair.extractLsb' 0 16).toInt * b.toInt)
    .next (((s.setZNDrawn p).setReg .double r p).advance words)

/-- The quotient, rounded toward zero, and the remainder, with the sign of the dividend; none on a zero divisor or a quotient
outside 16 signed bits (R403, D24, D25). -/
def quotient (dividend : BitVec 32) (divisor : Word) : Option (Word × Word) :=
  let q := dividend.toInt.tdiv divisor.toInt
  if divisor = 0#16 then none
  else if -32768 ≤ q ∧ q ≤ 32767 then
    some (BitVec.ofInt 16 q, BitVec.ofInt 16 (dividend.toInt - q * divisor.toInt))
  else none

/-- The codes of a divide that has a quotient: N and Z from it, O 0, C drawn, OH as it is (R403). -/
def State.setQuotient (s : State) (q : Word) : State :=
  State.drew { s with psw := { s.psw with n := q.msb, z := q == 0#16, o := false, c := s.drawnBit 1 } }

/-- The codes of a divide overflow: O and OH 1, the others drawn (R403, D25). -/
def State.setDivideOverflow (s : State) : State :=
  State.drew { s with psw := { s.psw with
      n := s.drawnBit 3, z := s.drawnBit 4, o := true, c := s.drawnBit 1, oh := true } }

/-- Divide (R403-R408): the quotient to R+1, the remainder to R; on overflow both registers are drawn (D25). -/
def divide (r : Reg) (src : Src .single) (words : Nat) (s : State) : Res State :=
  Res.bind (readPair r s) fun pair => Res.bind (src.read s) fun b =>
    match quotient pair b with
    | some (q, m) => .next (((s.setQuotient q).setReg .double r (m ++ q)).advance words)
    | none => .next (((s.setDivideOverflow).setReg .double r (Config.draw 32 s.draws)).advance words)

/-- Extend Sign (R413, R414): N and Z from the wide result, O and C drawn. -/
def extendSign (narrow wide : Width) (r q : Reg) (s : State) : Res State :=
  Res.bind (readReg wide r s) fun _ => Res.bind (readReg narrow q s) fun b =>
    let v := b.signExtend wide.bits
    .next (((s.setZNDrawn v).setReg wide r v).advance 1)

/-- R397 `MPR,R,S`: Multiply Register, by R. -/
def execMpr (r q : Reg) (s : State) : Res State := tentative <| multiply r (.reg q) 1 s

/-- R398 `MPRD,RP,SP`: Multiply Register, by R double. -/
def execMprd (_r _q : Reg) (_s : State) : Res State := .refused .wideMultiplyDivide

/-- R399 `MPM*,R,X A`: Multiply Memory, by R. -/
def execMpm (r : Reg) (m : LongAddress) (s : State) : Res State := tentative <| multiply r (.mem (.long m)) 2 s

/-- R400 `MPMD*,RP,X A`: Multiply Memory, by R double. -/
def execMpmd (_r : Reg) (_m : LongAddress) (_s : State) : Res State := .refused .wideMultiplyDivide

/-- R401 `MPS,R,D`: Multiply Memory, by R Short Displaced. -/
def execMps (r : Reg) (d : Nibble) (s : State) : Res State := tentative <| multiply r (.mem (.displaced d)) 1 s

/-- R402 `MPX,R,X`: Multiply Memory, by R Short Indexed. -/
def execMpx (r x : Reg) (s : State) : Res State := tentative <| multiply r (.mem (.indexed x)) 1 s

/-- R403 `DVR,R,S`: Divide...by Register, R. -/
def execDvr (r q : Reg) (s : State) : Res State := tentative <| divide r (.reg q) 1 s

/-- R404 `DVRD,RQ,SP`: Divide...by Register, R quadruple (by R double). -/
def execDvrd (_r _q : Reg) (_s : State) : Res State := .refused .wideMultiplyDivide

/-- R405 `DVM*,R,X A`: Divide...by Memory, R. -/
def execDvm (r : Reg) (m : LongAddress) (s : State) : Res State := tentative <| divide r (.mem (.long m)) 2 s

/-- R406 `DVMD*,RQ,X A`: Divide...by Memory, R quadruple (by M double). -/
def execDvmd (_r : Reg) (_m : LongAddress) (_s : State) : Res State := .refused .wideMultiplyDivide

/-- R407 `DVS,R,D`: Divide...by Memory, R Short Displaced. -/
def execDvs (r : Reg) (d : Nibble) (s : State) : Res State := tentative <| divide r (.mem (.displaced d)) 1 s

/-- R408 `DVX,R,X`: Divide...by Memory, R Short Indexed. -/
def execDvx (r x : Reg) (s : State) : Res State := tentative <| divide r (.mem (.indexed x)) 1 s

/-- R409 `TTR,R,S`: Transfer Two's Complement, R to R. -/
def execTtr (r q : Reg) (s : State) : Res State := toRegister .single .negate r (.reg q) (.seq 1) s

/-- R410 `TTRB,R,S B`: Transfer Two's Complement, R to R, BR is nonzero. -/
def execTtrb (r q : Reg) (b : Word) (s : State) : Res State := toRegister .single .negate r (.reg q) (.nonzero 2 b) s

/-- R411 `TTRD,RP,SP`: Transfer Two's Complement, R to R double. -/
def execTtrd (r q : Reg) (s : State) : Res State := toRegister .double .negate r (.reg q) (.seq 1) s

/-- R412 `TTRQ,RQ,SQ`: Transfer Two's Complement, R to R quadruple. -/
def execTtrq (r q : Reg) (s : State) : Res State := toRegister .quad .negate r (.reg q) (.seq 1) s

/-- R413 `ESS,RP,S`: Extend Sign, single. -/
def execEss (r q : Reg) (s : State) : Res State := extendSign .single .double r q s

/-- R414 `ESD,RQ,SP`: Extend Sign, double. -/
def execEsd (r q : Reg) (s : State) : Res State := extendSign .double .quad r q s

end Sys2Proof.Machine
end

