-- ==== Sys2Proof/Machine/Shift.lean ====
section
/-! DEFINITION. The shift, rotate and generate-mask instructions (spec/41_shift.md R235-R249). -/

namespace Sys2Proof.Machine

/-- The four shifts (R235-R246). -/
inductive ShiftKind where
  | arithmeticRight
  | arithmeticLeft
  | logicalRight
  | logicalLeft
  deriving DecidableEq, Repr

/-- The product of the signed value and 2^C fits in the signed width (R238, R10). -/
def shiftFits {w : Nat} (v : BitVec w) (c : Nat) : Bool :=
  decide (-(2 ^ (w - 1) : Int) ≤ v.toInt * 2 ^ c) && decide (v.toInt * 2 ^ c < (2 ^ (w - 1) : Int))

/-- The shifted value; `free` stands for the result of an arithmetic left shift that loses significant bits (D26). -/
def ShiftKind.apply {w : Nat} (kind : ShiftKind) (v : BitVec w) (c : Nat) (free : BitVec w) : BitVec w :=
  match kind with
  | .arithmeticRight => v.sshiftRight c
  | .arithmeticLeft => if shiftFits v c then v <<< c else free
  | .logicalRight => v >>> c
  | .logicalLeft => v <<< c

/-- The shift rows (R235-R246): N and Z from the result, O and C drawn (D10). -/
def shift (k : Width) (kind : ShiftKind) (r : Reg) (c : Nibble) (s : State) : Res State :=
  Res.bind (readReg k r s) fun v =>
    let v' := kind.apply v c.toNat (Config.draw k.bits s.draws)
    .next (((s.setZNDrawn v').setReg k r v').advance 1)

/-- R235 `RAS,R,C`: Shift Arithmetic, right single. -/
def execRas (r : Reg) (c : Nibble) (s : State) : Res State := shift .single .arithmeticRight r c s

/-- R236 `RAD,RP,C`: Shift Arithmetic, right double. -/
def execRad (r : Reg) (c : Nibble) (s : State) : Res State := shift .double .arithmeticRight r c s

/-- R237 `RAQ,RQ,C`: Shift Arithmetic, right quadruple. -/
def execRaq (r : Reg) (c : Nibble) (s : State) : Res State := shift .quad .arithmeticRight r c s

/-- R238 `LAS,R,C`: Shift Arithmetic, left single. -/
def execLas (r : Reg) (c : Nibble) (s : State) : Res State := shift .single .arithmeticLeft r c s

/-- R239 `LAD,RP,C`: Shift Arithmetic, left double. -/
def execLad (r : Reg) (c : Nibble) (s : State) : Res State := shift .double .arithmeticLeft r c s

/-- R240 `LAQ,RQ,C`: Shift Arithmetic, left quadruple. -/
def execLaq (r : Reg) (c : Nibble) (s : State) : Res State := shift .quad .arithmeticLeft r c s

/-- R241 `RLS,R,C`: Shift Logical, right single. -/
def execRls (r : Reg) (c : Nibble) (s : State) : Res State := shift .single .logicalRight r c s

/-- R242 `RLD,RP,C`: Shift Logical, right double. -/
def execRld (r : Reg) (c : Nibble) (s : State) : Res State := shift .double .logicalRight r c s

/-- R243 `RLQ,RQ,C`: Shift Logical, right quadruple. -/
def execRlq (r : Reg) (c : Nibble) (s : State) : Res State := shift .quad .logicalRight r c s

/-- R244 `LLS,R,C`: Shift Logical, left single. -/
def execLls (r : Reg) (c : Nibble) (s : State) : Res State := shift .single .logicalLeft r c s

/-- R245 `LLD,RP,C`: Shift Logical, left double. -/
def execLld (r : Reg) (c : Nibble) (s : State) : Res State := shift .double .logicalLeft r c s

/-- R246 `LLQ,RQ,C`: Shift Logical, left quadruple. -/
def execLlq (r : Reg) (c : Nibble) (s : State) : Res State := shift .quad .logicalLeft r c s

/-- R247 `LRS,R,S`: Rotate Register, left single. -/
def execLrs (_r _q : Reg) (_s : State) : Res State := .refused .rotateAmount

/-- R248 `GMR,R,BIT`: Generate Mask, in R. -/
def execGmr (r : Reg) (n : Nibble) (s : State) : Res State :=
  tentative <| toRegister .single .generateMask r (.const (bitmask n)) (.seq 1) s

/-- R249 `GMRB,R,BIT B`: Generate Mask, in R, BR unconditionally. -/
def execGmrb (r : Reg) (n : Nibble) (b : Word) (s : State) : Res State :=
  tentative <| toRegister .single .generateMask r (.const (bitmask n)) (.always b) s

end Sys2Proof.Machine
end

