-- ==== Sys2Proof/Machine/Dispatch.lean ====
section
/-! DEFINITION. One arm per instruction, each a direct call of its meaning. -/

namespace Sys2Proof.Machine

/-- The meaning of an instruction (spec/00_scope.md R5). -/
def exec (i : Instr) (s : State) : Host.Outcome State Fault Refusal :=
  match i with
  -- spec/40_move.md
  | .lbr r n => Sys2Proof.Machine.execLbr r n s
  | .lbrb r n b => Sys2Proof.Machine.execLbrb r n b s
  | .lbx r x => Sys2Proof.Machine.execLbx r x s
  | .ldm r m => Sys2Proof.Machine.execLdm r m s
  | .ldmd r m => Sys2Proof.Machine.execLdmd r m s
  | .ldt r v => Sys2Proof.Machine.execLdt r v s
  | .lds r d => Sys2Proof.Machine.execLds r d s
  | .ldx r x => Sys2Proof.Machine.execLdx r x s
  | .ldxd r x => Sys2Proof.Machine.execLdxd r x s
  | .lfm r m => Sys2Proof.Machine.execLfm r m s
  | .lfs r d => Sys2Proof.Machine.execLfs r d s
  | .lfx r x => Sys2Proof.Machine.execLfx r x s
  | .sbx r x => Sys2Proof.Machine.execSbx r x s
  | .stm r m => Sys2Proof.Machine.execStm r m s
  | .stmd r m => Sys2Proof.Machine.execStmd r m s
  | .sti r v => Sys2Proof.Machine.execSti r v s
  | .sts r d => Sys2Proof.Machine.execSts r d s
  | .stx r x => Sys2Proof.Machine.execStx r x s
  | .stxd r x => Sys2Proof.Machine.execStxd r x s
  | .sfm r m => Sys2Proof.Machine.execSfm r m s
  | .sfs r d => Sys2Proof.Machine.execSfs r d s
  | .sfx r x => Sys2Proof.Machine.execSfx r x s
  | .plm r m counts => Sys2Proof.Machine.execPlm r m counts s
  | .psm r m counts => Sys2Proof.Machine.execPsm r m counts s
  | .mlr r q => Sys2Proof.Machine.execMlr r q s
  | .mbr r q => Sys2Proof.Machine.execMbr r q s
  | .mur r q => Sys2Proof.Machine.execMur r q s
  | .mbl r q => Sys2Proof.Machine.execMbl r q s
  | .ibr r q => Sys2Proof.Machine.execIbr r q s
  | .irm r m => Sys2Proof.Machine.execIrm r m s
  | .irr r q => Sys2Proof.Machine.execIrr r q s
  | .trr r q => Sys2Proof.Machine.execTrr r q s
  | .trrb r q b => Sys2Proof.Machine.execTrrb r q b s
  | .trrd r q => Sys2Proof.Machine.execTrrd r q s
  | .trrq r q => Sys2Proof.Machine.execTrrq r q s
  -- spec/41_shift.md
  | .ras r c => Sys2Proof.Machine.execRas r c s
  | .rad r c => Sys2Proof.Machine.execRad r c s
  | .raq r c => Sys2Proof.Machine.execRaq r c s
  | .las r c => Sys2Proof.Machine.execLas r c s
  | .lad r c => Sys2Proof.Machine.execLad r c s
  | .laq r c => Sys2Proof.Machine.execLaq r c s
  | .rls r c => Sys2Proof.Machine.execRls r c s
  | .rld r c => Sys2Proof.Machine.execRld r c s
  | .rlq r c => Sys2Proof.Machine.execRlq r c s
  | .lls r c => Sys2Proof.Machine.execLls r c s
  | .lld r c => Sys2Proof.Machine.execLld r c s
  | .llq r c => Sys2Proof.Machine.execLlq r c s
  | .lrs r q => Sys2Proof.Machine.execLrs r q s
  | .gmr r n => Sys2Proof.Machine.execGmr r n s
  | .gmrb r n b => Sys2Proof.Machine.execGmrb r n b s
  -- spec/42_logical.md
  | .zbr r n => Sys2Proof.Machine.execZbr r n s
  | .zbrb r n b => Sys2Proof.Machine.execZbrb r n b s
  | .zbmm n m => Sys2Proof.Machine.execZbmm n m s
  | .zmmb n m b => Sys2Proof.Machine.execZmmb n m b s
  | .zbsm n d => Sys2Proof.Machine.execZbsm n d s
  | .zbsb n d b => Sys2Proof.Machine.execZbsb n d b s
  | .zbxm n x => Sys2Proof.Machine.execZbxm n x s
  | .zbxb n x b => Sys2Proof.Machine.execZbxb n x b s
  | .etr r q => Sys2Proof.Machine.execEtr r q s
  | .etrb r q b => Sys2Proof.Machine.execEtrb r q b s
  | .etmm r m => Sys2Proof.Machine.execEtmm r m s
  | .etmb r m b => Sys2Proof.Machine.execEtmb r m b s
  | .etsm r d => Sys2Proof.Machine.execEtsm r d s
  | .etsb r d b => Sys2Proof.Machine.execEtsb r d b s
  | .etxm r x => Sys2Proof.Machine.execEtxm r x s
  | .etxb r x b => Sys2Proof.Machine.execEtxb r x b s
  | .etm r m => Sys2Proof.Machine.execEtm r m s
  | .eti r v => Sys2Proof.Machine.execEti r v s
  | .ets r d => Sys2Proof.Machine.execEts r d s
  | .etx r x => Sys2Proof.Machine.execEtx r x s
  | .obr r n => Sys2Proof.Machine.execObr r n s
  | .obrb r n b => Sys2Proof.Machine.execObrb r n b s
  | .obmm n m => Sys2Proof.Machine.execObmm n m s
  | .obsm n d => Sys2Proof.Machine.execObsm n d s
  | .obxm n x => Sys2Proof.Machine.execObxm n x s
  | .orr r q => Sys2Proof.Machine.execOrr r q s
  | .orrb r q b => Sys2Proof.Machine.execOrrb r q b s
  | .ormm r m => Sys2Proof.Machine.execOrmm r m s
  | .orsm r d => Sys2Proof.Machine.execOrsm r d s
  | .orxm r x => Sys2Proof.Machine.execOrxm r x s
  | .orm r m => Sys2Proof.Machine.execOrm r m s
  | .ori r v => Sys2Proof.Machine.execOri r v s
  | .ors r d => Sys2Proof.Machine.execOrs r d s
  | .orx r x => Sys2Proof.Machine.execOrx r x s
  | .xbr r n => Sys2Proof.Machine.execXbr r n s
  | .xbrb r n b => Sys2Proof.Machine.execXbrb r n b s
  | .xor r q => Sys2Proof.Machine.execXor r q s
  | .xorb r q b => Sys2Proof.Machine.execXorb r q b s
  | .xom r m => Sys2Proof.Machine.execXom r m s
  | .xoi r v => Sys2Proof.Machine.execXoi r v s
  | .xos r d => Sys2Proof.Machine.execXos r d s
  | .xox r x => Sys2Proof.Machine.execXox r x s
  | .tor r q => Sys2Proof.Machine.execTor r q s
  -- spec/43_compare_test.md
  | .cbmb n m b1 b2 => Sys2Proof.Machine.execCbmb n m b1 b2 s
  | .cbsb n d b1 b2 => Sys2Proof.Machine.execCbsb n d b1 b2 s
  | .cbxb n x b1 b2 => Sys2Proof.Machine.execCbxb n x b1 b2 s
  | .crr r q => Sys2Proof.Machine.execCrr r q s
  | .crrd r q => Sys2Proof.Machine.execCrrd r q s
  | .crm r m => Sys2Proof.Machine.execCrm r m s
  | .crmb r m b1 b2 => Sys2Proof.Machine.execCrmb r m b1 b2 s
  | .crmd r m => Sys2Proof.Machine.execCrmd r m s
  | .cri r v => Sys2Proof.Machine.execCri r v s
  | .crs r d => Sys2Proof.Machine.execCrs r d s
  | .crsb r d b1 b2 => Sys2Proof.Machine.execCrsb r d b1 b2 s
  | .crx r x => Sys2Proof.Machine.execCrx r x s
  | .crxb r x b1 b2 => Sys2Proof.Machine.execCrxb r x b1 b2 s
  | .tbr r n => Sys2Proof.Machine.execTbr r n s
  | .tbrb r n b => Sys2Proof.Machine.execTbrb r n b s
  | .tbmm n m => Sys2Proof.Machine.execTbmm n m s
  | .tbmb n m b => Sys2Proof.Machine.execTbmb n m b s
  | .tbsm n d => Sys2Proof.Machine.execTbsm n d s
  | .tbsb n d b => Sys2Proof.Machine.execTbsb n d b s
  | .tbxm n x => Sys2Proof.Machine.execTbxm n x s
  | .tbxb n x b => Sys2Proof.Machine.execTbxb n x b s
  | .tek r q b => Sys2Proof.Machine.execTek r q b s
  | .trmb r m b => Sys2Proof.Machine.execTrmb r m b s
  | .trsb r d b => Sys2Proof.Machine.execTrsb r d b s
  | .trxb r x b => Sys2Proof.Machine.execTrxb r x b s
  -- spec/44_branch.md
  | .hop n => Sys2Proof.Machine.execHop n s
  | .hzr n => Sys2Proof.Machine.execHzr n s
  | .hzs n => Sys2Proof.Machine.execHzs n s
  | .hnr n => Sys2Proof.Machine.execHnr n s
  | .hns n => Sys2Proof.Machine.execHns n s
  | .hcr n => Sys2Proof.Machine.execHcr n s
  | .hcs n => Sys2Proof.Machine.execHcs n s
  | .hor n => Sys2Proof.Machine.execHor n s
  | .hos n => Sys2Proof.Machine.execHos n s
  | .hls n => Sys2Proof.Machine.execHls n s
  | .hle n => Sys2Proof.Machine.execHle n s
  | .hge n => Sys2Proof.Machine.execHge n s
  | .hgt n => Sys2Proof.Machine.execHgt n s
  | .hnh n => Sys2Proof.Machine.execHnh n s
  | .hhi n => Sys2Proof.Machine.execHhi n s
  | .bxr x => Sys2Proof.Machine.execBxr x s
  | .bxs x => Sys2Proof.Machine.execBxs x s
  | .bxnr x => Sys2Proof.Machine.execBxnr x s
  | .bxns x => Sys2Proof.Machine.execBxns x s
  | .bxcr x => Sys2Proof.Machine.execBxcr x s
  | .bxcs x => Sys2Proof.Machine.execBxcs x s
  | .bxor x => Sys2Proof.Machine.execBxor x s
  | .bxos x => Sys2Proof.Machine.execBxos x s
  | .bxls x => Sys2Proof.Machine.execBxls x s
  | .bxle x => Sys2Proof.Machine.execBxle x s
  | .bxge x => Sys2Proof.Machine.execBxge x s
  | .bxgt x => Sys2Proof.Machine.execBxgt x s
  | .bxnh x => Sys2Proof.Machine.execBxnh x s
  | .bxhi x => Sys2Proof.Machine.execBxhi x s
  | .blm r m => Sys2Proof.Machine.execBlm r m s
  | .bli r => Sys2Proof.Machine.execBli r s
  | .blx r x => Sys2Proof.Machine.execBlx r x s
  | .blt n => Sys2Proof.Machine.execBlt n s
  | .blzr r b => Sys2Proof.Machine.execBlzr r b s
  | .blzs r b => Sys2Proof.Machine.execBlzs r b s
  | .blnr r b => Sys2Proof.Machine.execBlnr r b s
  | .blns r b => Sys2Proof.Machine.execBlns r b s
  | .blcr r b => Sys2Proof.Machine.execBlcr r b s
  | .blcs r b => Sys2Proof.Machine.execBlcs r b s
  | .blor r b => Sys2Proof.Machine.execBlor r b s
  | .blos r b => Sys2Proof.Machine.execBlos r b s
  | .blls r b => Sys2Proof.Machine.execBlls r b s
  | .blle r b => Sys2Proof.Machine.execBlle r b s
  | .blge r b => Sys2Proof.Machine.execBlge r b s
  | .blgt r b => Sys2Proof.Machine.execBlgt r b s
  | .blnh r b => Sys2Proof.Machine.execBlnh r b s
  | .blhi r b => Sys2Proof.Machine.execBlhi r b s
  -- spec/45_add_subtract.md
  | .abr r n => Sys2Proof.Machine.execAbr r n s
  | .abrb r n b => Sys2Proof.Machine.execAbrb r n b s
  | .abmm n m => Sys2Proof.Machine.execAbmm n m s
  | .abmb n m b => Sys2Proof.Machine.execAbmb n m b s
  | .absm n d => Sys2Proof.Machine.execAbsm n d s
  | .absb n d b => Sys2Proof.Machine.execAbsb n d b s
  | .abxm n x => Sys2Proof.Machine.execAbxm n x s
  | .abxb n x b => Sys2Proof.Machine.execAbxb n x b s
  | .adr r q => Sys2Proof.Machine.execAdr r q s
  | .adrb r q b => Sys2Proof.Machine.execAdrb r q b s
  | .adrd r q => Sys2Proof.Machine.execAdrd r q s
  | .admm r m => Sys2Proof.Machine.execAdmm r m s
  | .admb r m b => Sys2Proof.Machine.execAdmb r m b s
  | .adsm r d => Sys2Proof.Machine.execAdsm r d s
  | .adsb r d b => Sys2Proof.Machine.execAdsb r d b s
  | .adxm r x => Sys2Proof.Machine.execAdxm r x s
  | .adxb r x b => Sys2Proof.Machine.execAdxb r x b s
  | .adm r m => Sys2Proof.Machine.execAdm r m s
  | .admd r m => Sys2Proof.Machine.execAdmd r m s
  | .adi r v => Sys2Proof.Machine.execAdi r v s
  | .ads r d => Sys2Proof.Machine.execAds r d s
  | .adx r x => Sys2Proof.Machine.execAdx r x s
  | .sbr r n => Sys2Proof.Machine.execSbr r n s
  | .sbrb r n b => Sys2Proof.Machine.execSbrb r n b s
  | .sur r q => Sys2Proof.Machine.execSur r q s
  | .surb r q b => Sys2Proof.Machine.execSurb r q b s
  | .surd r q => Sys2Proof.Machine.execSurd r q s
  | .sum r m => Sys2Proof.Machine.execSum r m s
  | .sumd r m => Sys2Proof.Machine.execSumd r m s
  | .sui r v => Sys2Proof.Machine.execSui r v s
  | .sus r d => Sys2Proof.Machine.execSus r d s
  | .sux r x => Sys2Proof.Machine.execSux r x s
  -- spec/46_multiply_divide.md
  | .mpr r q => Sys2Proof.Machine.execMpr r q s
  | .mprd r q => Sys2Proof.Machine.execMprd r q s
  | .mpm r m => Sys2Proof.Machine.execMpm r m s
  | .mpmd r m => Sys2Proof.Machine.execMpmd r m s
  | .mps r d => Sys2Proof.Machine.execMps r d s
  | .mpx r x => Sys2Proof.Machine.execMpx r x s
  | .dvr r q => Sys2Proof.Machine.execDvr r q s
  | .dvrd r q => Sys2Proof.Machine.execDvrd r q s
  | .dvm r m => Sys2Proof.Machine.execDvm r m s
  | .dvmd r m => Sys2Proof.Machine.execDvmd r m s
  | .dvs r d => Sys2Proof.Machine.execDvs r d s
  | .dvx r x => Sys2Proof.Machine.execDvx r x s
  | .ttr r q => Sys2Proof.Machine.execTtr r q s
  | .ttrb r q b => Sys2Proof.Machine.execTtrb r q b s
  | .ttrd r q => Sys2Proof.Machine.execTtrd r q s
  | .ttrq r q => Sys2Proof.Machine.execTtrq r q s
  | .ess r q => Sys2Proof.Machine.execEss r q s
  | .esd r q => Sys2Proof.Machine.execEsd r q s
  -- spec/47_floating.md
  | .far r q => Sys2Proof.Machine.execFar r q s
  | .fard r q => Sys2Proof.Machine.execFard r q s
  | .farq r q => Sys2Proof.Machine.execFarq r q s
  | .fam r m => Sys2Proof.Machine.execFam r m s
  | .famd r m => Sys2Proof.Machine.execFamd r m s
  | .famq r m => Sys2Proof.Machine.execFamq r m s
  | .fsr r q => Sys2Proof.Machine.execFsr r q s
  | .fsrd r q => Sys2Proof.Machine.execFsrd r q s
  | .fsrq r q => Sys2Proof.Machine.execFsrq r q s
  | .fsm r m => Sys2Proof.Machine.execFsm r m s
  | .fsmd r m => Sys2Proof.Machine.execFsmd r m s
  | .fsmq r m => Sys2Proof.Machine.execFsmq r m s
  | .fmr r q => Sys2Proof.Machine.execFmr r q s
  | .fmrd r q => Sys2Proof.Machine.execFmrd r q s
  | .fmrq r q => Sys2Proof.Machine.execFmrq r q s
  | .fmm r m => Sys2Proof.Machine.execFmm r m s
  | .fmmd r m => Sys2Proof.Machine.execFmmd r m s
  | .fmmq r m => Sys2Proof.Machine.execFmmq r m s
  | .fdr r q => Sys2Proof.Machine.execFdr r q s
  | .fdrd r q => Sys2Proof.Machine.execFdrd r q s
  | .fdrq r q => Sys2Proof.Machine.execFdrq r q s
  | .fdm r m => Sys2Proof.Machine.execFdm r m s
  | .fdmd r m => Sys2Proof.Machine.execFdmd r m s
  | .fdmq r m => Sys2Proof.Machine.execFdmq r m s
  | .cdie r q => Sys2Proof.Machine.execCdie r q s
  | .cfdi r q => Sys2Proof.Machine.execCfdi r q s
  | .coff r q => Sys2Proof.Machine.execCoff r q s
  -- spec/48_control.md
  | .rex sn => Sys2Proof.Machine.execRex sn s
  | .rmi => Sys2Proof.Machine.execRmi s
  | .nop => Sys2Proof.Machine.execNop s
  | .exr r q => Sys2Proof.Machine.execExr r q s
  | .lcie r => Sys2Proof.Machine.execLcie r s
  | .lcia r => Sys2Proof.Machine.execLcia r s
  | .lcip r => Sys2Proof.Machine.execLcip r s
  | .lccc r => Sys2Proof.Machine.execLccc r s
  | .lcps r => Sys2Proof.Machine.execLcps r s
  | .lcpr r => Sys2Proof.Machine.execLcpr r s
  | .sccc r => Sys2Proof.Machine.execSccc r s
  | .tdr => Sys2Proof.Machine.execTdr s
  | .hlt => Sys2Proof.Machine.execHlt s
  | .evmo => Sys2Proof.Machine.execEvmo s
  | .mrrbRm r x => Sys2Proof.Machine.execMrrbRm r x s
  | .mrrbMr r x => Sys2Proof.Machine.execMrrbMr r x s
  | .scrb => Sys2Proof.Machine.execScrb s
  | .mabi => Sys2Proof.Machine.execMabi s
  | .amem r => Sys2Proof.Machine.execAmem r s
  | .dmeh r => Sys2Proof.Machine.execDmeh r s
  | .limp r => Sys2Proof.Machine.execLimp r s
  | .lomp r => Sys2Proof.Machine.execLomp r s
  | .zimp r => Sys2Proof.Machine.execZimp r s
  | .zomp r => Sys2Proof.Machine.execZomp r s
  | .siom r => Sys2Proof.Machine.execSiom r s
  | .soom r => Sys2Proof.Machine.execSoom r s
  | .szom => Sys2Proof.Machine.execSzom s
  | .ldvm r p => Sys2Proof.Machine.execLdvm r p s
  | .ldam r p => Sys2Proof.Machine.execLdam r p s
  | .stvm r p => Sys2Proof.Machine.execStvm r p s
  | .stan r p => Sys2Proof.Machine.execStan r p s
  | .spr => Sys2Proof.Machine.execSpr s
  | .sgp pr => Sys2Proof.Machine.execSgp pr s
  | .slp pr => Sys2Proof.Machine.execSlp pr s
  | .sup pr => Sys2Proof.Machine.execSup pr s
  -- spec/49_interrupt_io.md
  | .sie l => Sys2Proof.Machine.execSie l s
  | .sia l => Sys2Proof.Machine.execSia l s
  | .sir l => Sys2Proof.Machine.execSir l s
  | .rie l => Sys2Proof.Machine.execRie l s
  | .ria l => Sys2Proof.Machine.execRia l s
  | .rir l => Sys2Proof.Machine.execRir l s
  | .car r => Sys2Proof.Machine.execCar r s
  | .cir r => Sys2Proof.Machine.execCir r s
  | .isi j r u => Sys2Proof.Machine.execIsi j r u s
  | .idi j r u => Sys2Proof.Machine.execIdi j r u s
  | .oci j r u => Sys2Proof.Machine.execOci j r u s
  | .odi j r u => Sys2Proof.Machine.execOdi j r u s
  | .dmpi r ch => Sys2Proof.Machine.execDmpi r ch s

end Sys2Proof.Machine
end

