-- ==== Sys2Proof/WellFormed.lean ====
section
/-! DEFINITION. Which instruction terms an instruction word can carry: the shared sub-operation bit of a register nibble is
clear in the register number (spec/30_encoding.md R116), ZOMP's field is not 0 (R114), and the row has an encoding at all
(R111, R123). The operand values a rule forbids (register 0, a pair that is no pair, X outside 1..7, the hop field 40) are
no matter of this file: "the word decodes, and the instruction refuses" (R122). -/

namespace Sys2Proof

/-- The bit of a register nibble that a sub-operation shares is clear in the number (R116). -/
def evenNumber (r : Reg) : Bool := !r.getLsbD 0

/-- The field is not 0: the word 018x with x = 0 is MABI and not ZOMP (R114). -/
def nonzeroField (r : Reg) : Bool := r != 0#4

/-- The instruction is the decoding of some word (R116, R114, R111, R123). -/
def Instr.WellFormed (i : Instr) : Bool :=
  match i with
  | .ldmd r _ | .ldxd r _ | .stmd r _ | .stxd r _ | .trrd r _ | .trrq r _ | .rad r _ | .raq r _ | .lad r _ | .laq r _
  | .rld r _ | .rlq r _ | .lld r _ | .llq r _ | .crrd r _ | .crmd r _ | .adrd r _ | .admd r _ | .surd r _ | .sumd r _
  | .mprd r _ | .mpmd r _ | .dvrd r _ | .dvmd r _ | .ttrd r _ | .ttrq r _ | .ess r _ | .esd r _ | .fam r _ | .famd r _
  | .famq r _ | .fsm r _ | .fsmd r _ | .fsmq r _ | .fmm r _ | .fmmd r _ | .fmmq r _ | .fdm r _ | .fdmd r _ | .fdmq r _ => evenNumber r
  | .cri _ _ => Config.criEncoding.isSome
  | .far r q | .fard r q | .farq r q | .fsr r q | .fsrd r q | .fsrq r q | .fmr r q | .fmrd r q | .fmrq r q | .fdr r q
  | .fdrd r q | .fdrq r q | .cdie r q | .cfdi r q | .coff r q => evenNumber r && evenNumber q
  | .nop => false
  | .sccc _ => Config.scccEncoding.isSome
  | .zomp r => nonzeroField r
  | .ldvm _ p | .ldam _ p | .stvm _ p | .stan _ p => evenNumber p
  | .lbr _ _ | .lbrb _ _ _ | .lbx _ _ | .ldm _ _ | .ldt _ _ | .lds _ _ | .ldx _ _ | .lfm _ _ | .lfs _ _ | .lfx _ _
  | .sbx _ _ | .stm _ _ | .sti _ _ | .sts _ _ | .stx _ _ | .sfm _ _ | .sfs _ _ | .sfx _ _ | .plm _ _ _ | .psm _ _ _
  | .mlr _ _ | .mbr _ _ | .mur _ _ | .mbl _ _ | .ibr _ _ | .irm _ _ | .irr _ _ | .trr _ _ | .trrb _ _ _ | .ras _ _
  | .las _ _ | .rls _ _ | .lls _ _ | .lrs _ _ | .gmr _ _ | .gmrb _ _ _ | .zbr _ _ | .zbrb _ _ _ | .zbmm _ _
  | .zmmb _ _ _ | .zbsm _ _ | .zbsb _ _ _ | .zbxm _ _ | .zbxb _ _ _ | .etr _ _ | .etrb _ _ _ | .etmm _ _ | .etmb _ _ _
  | .etsm _ _ | .etsb _ _ _ | .etxm _ _ | .etxb _ _ _ | .etm _ _ | .eti _ _ | .ets _ _ | .etx _ _ | .obr _ _
  | .obrb _ _ _ | .obmm _ _ | .obsm _ _ | .obxm _ _ | .orr _ _ | .orrb _ _ _ | .ormm _ _ | .orsm _ _ | .orxm _ _
  | .orm _ _ | .ori _ _ | .ors _ _ | .orx _ _ | .xbr _ _ | .xbrb _ _ _ | .xor _ _ | .xorb _ _ _ | .xom _ _ | .xoi _ _
  | .xos _ _ | .xox _ _ | .tor _ _ | .cbmb _ _ _ _ | .cbsb _ _ _ _ | .cbxb _ _ _ _ | .crr _ _ | .crm _ _
  | .crmb _ _ _ _ | .crs _ _ | .crsb _ _ _ _ | .crx _ _ | .crxb _ _ _ _ | .tbr _ _ | .tbrb _ _ _ | .tbmm _ _
  | .tbmb _ _ _ | .tbsm _ _ | .tbsb _ _ _ | .tbxm _ _ | .tbxb _ _ _ | .tek _ _ _ | .trmb _ _ _ | .trsb _ _ _
  | .trxb _ _ _ | .hop _ | .hzr _ | .hzs _ | .hnr _ | .hns _ | .hcr _ | .hcs _ | .hor _ | .hos _ | .hls _ | .hle _
  | .hge _ | .hgt _ | .hnh _ | .hhi _ | .bxr _ | .bxs _ | .bxnr _ | .bxns _ | .bxcr _ | .bxcs _ | .bxor _ | .bxos _
  | .bxls _ | .bxle _ | .bxge _ | .bxgt _ | .bxnh _ | .bxhi _ | .blm _ _ | .bli _ | .blx _ _ | .blt _ | .blzr _ _
  | .blzs _ _ | .blnr _ _ | .blns _ _ | .blcr _ _ | .blcs _ _ | .blor _ _ | .blos _ _ | .blls _ _ | .blle _ _
  | .blge _ _ | .blgt _ _ | .blnh _ _ | .blhi _ _ | .abr _ _ | .abrb _ _ _ | .abmm _ _ | .abmb _ _ _ | .absm _ _
  | .absb _ _ _ | .abxm _ _ | .abxb _ _ _ | .adr _ _ | .adrb _ _ _ | .admm _ _ | .admb _ _ _ | .adsm _ _ | .adsb _ _ _
  | .adxm _ _ | .adxb _ _ _ | .adm _ _ | .adi _ _ | .ads _ _ | .adx _ _ | .sbr _ _ | .sbrb _ _ _ | .sur _ _
  | .surb _ _ _ | .sum _ _ | .sui _ _ | .sus _ _ | .sux _ _ | .mpr _ _ | .mpm _ _ | .mps _ _ | .mpx _ _ | .dvr _ _
  | .dvm _ _ | .dvs _ _ | .dvx _ _ | .ttr _ _ | .ttrb _ _ _ | .rex _ | .rmi | .exr _ _ | .lcie _ | .lcia _ | .lcip _
  | .lccc _ | .lcps _ | .lcpr _ | .tdr | .hlt | .evmo | .mrrbRm _ _ | .mrrbMr _ _ | .scrb | .mabi | .amem _ | .dmeh _
  | .limp _ | .lomp _ | .zimp _ | .siom _ | .soom _ | .szom | .spr | .sgp _ | .slp _ | .sup _ | .sie _ | .sia _
  | .sir _ | .rie _ | .ria _ | .rir _ | .car _ | .cir _ | .isi _ _ _ | .idi _ _ _ | .oci _ _ _ | .odi _ _ _ | .dmpi _ _ => true

end Sys2Proof
end

