-- ==== Sys2Proof/Decode.lean ====
section
/-! DEFINITION. Decoding and encoding of instruction words, written from the op-code map (spec/30_encoding.md R101-R124).
Words travel as bytes, the left byte first (spec/20_memory.md R61). Total: what is no instruction is rejected by name.
The word noncomputable only switches Lean's code generator off, which cannot build an inductive type's constructors beyond
the 244th; the kernel evaluates every definition here. -/

namespace Sys2Proof

/-- Why bytes are no instruction. -/
inductive DecodeError where
  /-- The first word matches no decodable row (R122); the machine raises UnimplementedInstruction. -/
  | unimplemented
  /-- The bytes end before the instruction does. -/
  | truncated
  deriving DecidableEq, Repr

/-- An instruction whose first word is known: what its following words (A or V, then B or B1, B2; R110) make of it. -/
inductive Shape where
  | one (i : Instr)
  | two (f : Word → Instr)
  | three (f : Word → Word → Instr)
  | four (f : Word → Word → Word → Instr)

/-- How many words follow the first (R100, R124). -/
def Shape.extra : Shape → Nat
  | .one _ => 0
  | .two _ => 1
  | .three _ => 2
  | .four _ => 3

/-- The instruction once its following words are there, and the words after it. -/
def Shape.read : Shape → List Word → Except DecodeError (Instr × List Word)
  | .one i, ws => .ok (i, ws)
  | .two f, a :: ws => .ok (f a, ws)
  | .three f, a :: b :: ws => .ok (f a b, ws)
  | .four f, a :: b :: c :: ws => .ok (f a b c, ws)
  | _, _ => .error .truncated

/-- The op-code byte, bits 0-7 of word 1 (R101). -/
def opByte (w : Word) : Byte := w.extractLsb' 8 8

/-- The R nibble, bits 8-11 of word 1 (R101). -/
def rNibble (w : Word) : Nibble := w.extractLsb' 4 4

/-- The S nibble, bits 12-15 of word 1 (R101). -/
def sNibble (w : Word) : Nibble := w.extractLsb' 0 4

/-- Word 1 from its op-code byte and its two nibbles (R101, R120). -/
def joinWord (op : Byte) (r q : Nibble) : Word := op ++ r ++ q

/-- A register number with the shared sub-operation bit cleared (R116). -/
def clearLow (r : Nibble) : Reg := r &&& 0xE#4

/-- The S nibble of the long memory format: I is bit 12, X is bits 13-15 (R106). -/
def longOf (q : Nibble) (a : Word) : LongAddress := ⟨q.getLsbD 3, q.extractLsb' 0 3, a⟩

/-- The S nibble that `longOf` reads: 8 * I + X (R120). -/
def longNibble (m : LongAddress) : Nibble := BitVec.ofBool m.ind ++ m.x

/-- The 7-bit displacement field, bits 9-15 (R111). -/
def hopField (r q : Nibble) : BitVec 7 := r.extractLsb' 0 3 ++ q

/-- The R nibble of a hop: the inverting bit 8 and the top of the displacement (R111). -/
def hopHigh (inv : Bool) (n : BitVec 7) : Nibble := BitVec.ofBool inv ++ n.extractLsb' 4 3

/-- The S nibble of a hop: the low four bits of the displacement (R111). -/
def hopLow (n : BitVec 7) : Nibble := n.extractLsb' 0 4

/-- Row 0 of the op-code map (R121). -/
noncomputable def decodeRow0 (lo r q : Nibble) : Option Shape :=
  match lo.toNat with
  | 0 => some (.one .hlt)
  | 1 =>
      match r.toNat with
      | 0 => some (.one .rmi)
      | 1 => if q = 0x0#4 then some (.one .evmo) else none
      | 2 => some (.one (.siom q))
      | 3 => some (.one (.soom q))
      | 4 => some (.one .szom)
      | 5 => some (.one .scrb)
      | 8 => if q = 0x0#4 then some (.one .mabi) else some (.one (.zomp q))
      | 9 => some (.one (.zimp q))
      | 10 => some (.one (.dmeh q))
      | 12 => some (.one (.amem q))
      | 13 => some (.one (.limp q))
      | 14 => some (.one (.lomp q))
      | _ => none
  | 2 =>
      match r.toNat with
      | 0 => if q = 0x0#4 then some (.one .spr) else none
      | 8 => some (.one (.sgp q))
      | _ => none
  | 3 =>
      match r.toNat with
      | 0 => some (.one (.slp q))
      | _ => none
  | 4 =>
      match r.toNat with
      | 0 => some (.one (.sup q))
      | _ => none
  | 5 => some (.one (.dmpi r q))
  | 6 => some (.one (.mrrbMr r q))
  | 7 => some (.one (.mrrbRm r q))
  | 8 => some (.one (.mbr r q))
  | 9 => some (.one (.mbl r q))
  | 10 => some (.one (.ibr r q))
  | 11 => some (.one (.mur r q))
  | 12 => some (.one (.mlr r q))
  | 13 => some (.one (.tor r q))
  | 14 =>
      match q.toNat with
      | 0 => some (.one .tdr)
      | 1 => some (.one (.lcpr r))
      | 2 => some (.one (.lcps r))
      | 3 => some (.one (.lccc r))
      | 4 => some (.one (.lcia r))
      | 5 => some (.one (.lcie r))
      | 6 => some (.one (.lcip r))
      | _ => none
  | 15 => some (.one (.lrs r q))
  | _ => none

/-- Row 2 of the op-code map (R121). -/
noncomputable def decodeRow2 (lo r q : Nibble) : Option Shape :=
  match lo.toNat with
  | 0 => some (.one (.mpr r q))
  | 1 => some (.one (.dvr r q))
  | 2 =>
      if !r.getLsbD 0 then some (.one (.adrd (clearLow r) q))
      else none
  | 3 => some (.one (.rex (r ++ q)))
  | 4 =>
      match r.toNat with
      | 0 => some (.one (.car q))
      | _ => none
  | 5 =>
      match r.toNat with
      | 0 => some (.one (.cir q))
      | _ => none
  | 6 =>
      match r.toNat with
      | 0 => some (.one (.sia q))
      | 4 => some (.one (.sie q))
      | 8 => some (.one (.sir q))
      | _ => none
  | 7 =>
      match r.toNat with
      | 0 => some (.one (.ria q))
      | 4 => some (.one (.rie q))
      | 8 => some (.one (.rir q))
      | _ => none
  | 8 =>
      if !r.getLsbD 0 then some (.one (.rld (clearLow r) q))
      else some (.one (.rlq (clearLow r) q))
  | 9 => some (.one (.rls r q))
  | 10 =>
      if !r.getLsbD 0 then some (.one (.rad (clearLow r) q))
      else some (.one (.raq (clearLow r) q))
  | 11 => some (.one (.ras r q))
  | 12 =>
      if !r.getLsbD 0 then some (.one (.lld (clearLow r) q))
      else some (.one (.llq (clearLow r) q))
  | 13 => some (.one (.lls r q))
  | 14 =>
      if !r.getLsbD 0 then some (.one (.lad (clearLow r) q))
      else some (.one (.laq (clearLow r) q))
  | 15 => some (.one (.las r q))
  | _ => none

/-- Row 3 of the op-code map (R121). -/
def decodeRow3 (lo r q : Nibble) : Option Shape :=
  match lo.toNat with
  | 0 =>
      if !r.getLsbD 0 && !q.getLsbD 0 then some (.one (.far (clearLow r) (clearLow q)))
      else if !r.getLsbD 0 && q.getLsbD 0 then some (.one (.cdie (clearLow r) (clearLow q)))
      else none
  | 1 =>
      if !r.getLsbD 0 && !q.getLsbD 0 then some (.one (.fsr (clearLow r) (clearLow q)))
      else none
  | 2 =>
      if !r.getLsbD 0 && !q.getLsbD 0 then some (.one (.fmr (clearLow r) (clearLow q)))
      else none
  | 3 =>
      if !r.getLsbD 0 && !q.getLsbD 0 then some (.one (.fdr (clearLow r) (clearLow q)))
      else none
  | 4 =>
      if !r.getLsbD 0 && !q.getLsbD 0 then some (.one (.fard (clearLow r) (clearLow q)))
      else if r.getLsbD 0 && !q.getLsbD 0 then some (.one (.farq (clearLow r) (clearLow q)))
      else if !r.getLsbD 0 && q.getLsbD 0 then some (.one (.cfdi (clearLow r) (clearLow q)))
      else none
  | 5 =>
      if !r.getLsbD 0 && !q.getLsbD 0 then some (.one (.fsrd (clearLow r) (clearLow q)))
      else if r.getLsbD 0 && !q.getLsbD 0 then some (.one (.fsrq (clearLow r) (clearLow q)))
      else if !r.getLsbD 0 && q.getLsbD 0 then some (.one (.coff (clearLow r) (clearLow q)))
      else none
  | 6 =>
      if !r.getLsbD 0 && !q.getLsbD 0 then some (.one (.fmrd (clearLow r) (clearLow q)))
      else if r.getLsbD 0 && !q.getLsbD 0 then some (.one (.fmrq (clearLow r) (clearLow q)))
      else none
  | 7 =>
      if !r.getLsbD 0 && !q.getLsbD 0 then some (.one (.fdrd (clearLow r) (clearLow q)))
      else if r.getLsbD 0 && !q.getLsbD 0 then some (.one (.fdrq (clearLow r) (clearLow q)))
      else none
  | 8 =>
      if !r.getLsbD 0 then some (.two fun a => .fam (clearLow r) (longOf q a))
      else none
  | 9 =>
      if !r.getLsbD 0 then some (.two fun a => .fsm (clearLow r) (longOf q a))
      else none
  | 10 =>
      if !r.getLsbD 0 then some (.two fun a => .fmm (clearLow r) (longOf q a))
      else none
  | 11 =>
      if !r.getLsbD 0 then some (.two fun a => .fdm (clearLow r) (longOf q a))
      else none
  | 12 =>
      if !r.getLsbD 0 then some (.two fun a => .famd (clearLow r) (longOf q a))
      else some (.two fun a => .famq (clearLow r) (longOf q a))
  | 13 =>
      if !r.getLsbD 0 then some (.two fun a => .fsmd (clearLow r) (longOf q a))
      else some (.two fun a => .fsmq (clearLow r) (longOf q a))
  | 14 =>
      if !r.getLsbD 0 then some (.two fun a => .fmmd (clearLow r) (longOf q a))
      else some (.two fun a => .fmmq (clearLow r) (longOf q a))
  | 15 =>
      if !r.getLsbD 0 then some (.two fun a => .fdmd (clearLow r) (longOf q a))
      else some (.two fun a => .fdmq (clearLow r) (longOf q a))
  | _ => none

/-- Row 4 of the op-code map (R121). -/
noncomputable def decodeRow4 (lo r q : Nibble) : Option Shape :=
  match lo.toNat with
  | 0 => some (.one (.oci 0#2 r q))
  | 1 => some (.one (.oci 1#2 r q))
  | 2 => some (.one (.oci 2#2 r q))
  | 3 => some (.one (.oci 3#2 r q))
  | 4 => some (.one (.odi 0#2 r q))
  | 5 => some (.one (.odi 1#2 r q))
  | 6 => some (.one (.odi 2#2 r q))
  | 7 => some (.one (.odi 3#2 r q))
  | 8 => some (.one (.isi 0#2 r q))
  | 9 => some (.one (.isi 1#2 r q))
  | 10 => some (.one (.isi 2#2 r q))
  | 11 => some (.one (.isi 3#2 r q))
  | 12 => some (.one (.idi 0#2 r q))
  | 13 => some (.one (.idi 1#2 r q))
  | 14 => some (.one (.idi 2#2 r q))
  | 15 => some (.one (.idi 3#2 r q))
  | _ => none

/-- Row 6 of the op-code map (R121). -/
def decodeRow6 (lo r q : Nibble) : Option Shape :=
  match lo.toNat with
  | 0 => some (.one (.abr r q))
  | 1 => some (.one (.sbr r q))
  | 2 => some (.one (.zbr r q))
  | 3 => some (.one (.obr r q))
  | 4 => some (.one (.xbr r q))
  | 5 => some (.one (.lbr r q))
  | 6 => some (.one (.tbr r q))
  | 7 => some (.one (.gmr r q))
  | 8 => some (.one (.adr r q))
  | 9 => some (.one (.sur r q))
  | 10 => some (.one (.etr r q))
  | 11 => some (.one (.orr r q))
  | 12 => some (.one (.xor r q))
  | 13 => some (.one (.trr r q))
  | 14 => some (.one (.crr r q))
  | 15 => some (.one (.ttr r q))
  | _ => none

/-- Row 7 of the op-code map (R121). -/
def decodeRow7 (lo r q : Nibble) : Option Shape :=
  match lo.toNat with
  | 0 => some (.two fun a => .abrb r q a)
  | 1 => some (.two fun a => .sbrb r q a)
  | 2 => some (.two fun a => .zbrb r q a)
  | 3 => some (.two fun a => .obrb r q a)
  | 4 => some (.two fun a => .xbrb r q a)
  | 5 => some (.two fun a => .lbrb r q a)
  | 6 => some (.two fun a => .tbrb r q a)
  | 7 => some (.two fun a => .gmrb r q a)
  | 8 => some (.two fun a => .adrb r q a)
  | 9 => some (.two fun a => .surb r q a)
  | 10 => some (.two fun a => .etrb r q a)
  | 11 => some (.two fun a => .orrb r q a)
  | 12 => some (.two fun a => .xorb r q a)
  | 13 => some (.two fun a => .trrb r q a)
  | 14 => some (.two fun a => .tek r q a)
  | 15 => some (.two fun a => .ttrb r q a)
  | _ => none

/-- Row 8 of the op-code map (R121). -/
def decodeRow8 (lo r q : Nibble) : Option Shape :=
  match lo.toNat with
  | 0 => some (.two fun a => .abmm r (longOf q a))
  | 1 => some (.two fun a => .zbmm r (longOf q a))
  | 2 => some (.two fun a => .obmm r (longOf q a))
  | 3 => some (.two fun a => .tbmm r (longOf q a))
  | 4 => some (.three fun a b => .abmb r (longOf q a) b)
  | 5 => some (.three fun a b => .zmmb r (longOf q a) b)
  | 6 => some (.three fun a b => .tbmb r (longOf q a) b)
  | 7 => some (.four fun a b c => .cbmb r (longOf q a) b c)
  | 10 =>
      if !r.getLsbD 0 then some (.one (.ttrd (clearLow r) q))
      else none
  | 11 =>
      if !r.getLsbD 0 then some (.one (.ttrq (clearLow r) q))
      else none
  | 12 =>
      if r.getLsbD 0 then some (.one (.ess (clearLow r) q))
      else some (.one (.esd (clearLow r) q))
  | 13 =>
      if r.getLsbD 0 then some (.one (.ldxd (clearLow r) q))
      else some (.one (.trrq (clearLow r) q))
  | 14 =>
      if r.getLsbD 0 then some (.one (.stxd (clearLow r) q))
      else none
  | 15 =>
      match r.toNat with
      | 0 => some (.one (.bxns q))
      | 1 => some (.one (.bxs q))
      | 2 => some (.one (.bxos q))
      | 3 => some (.one (.bxcs q))
      | 4 => some (.one (.bxls q))
      | 5 => some (.one (.bxle q))
      | 6 => some (.one (.bxhi q))
      | 8 => some (.one (.bxnr q))
      | 9 => some (.one (.bxr q))
      | 10 => some (.one (.bxor q))
      | 11 => some (.one (.bxcr q))
      | 12 => some (.one (.bxge q))
      | 13 => some (.one (.bxgt q))
      | 14 => some (.one (.bxnh q))
      | _ => none
  | _ => none

/-- Row 9 of the op-code map (R121). -/
def decodeRow9 (lo r q : Nibble) : Option Shape :=
  match lo.toNat with
  | 0 => some (.one (.absm r q))
  | 1 => some (.one (.zbsm r q))
  | 2 => some (.one (.obsm r q))
  | 3 => some (.one (.tbsm r q))
  | 4 => some (.two fun a => .absb r q a)
  | 5 => some (.two fun a => .zbsb r q a)
  | 6 => some (.two fun a => .tbsb r q a)
  | 7 => some (.three fun a b => .cbsb r q a b)
  | 8 => some (.one (.abxm r q))
  | 9 => some (.one (.zbxm r q))
  | 10 => some (.one (.obxm r q))
  | 11 => some (.one (.tbxm r q))
  | 12 => some (.two fun a => .abxb r q a)
  | 13 => some (.two fun a => .zbxb r q a)
  | 14 => some (.two fun a => .tbxb r q a)
  | 15 => some (.three fun a b => .cbxb r q a b)
  | _ => none

/-- Row A of the op-code map (R121). -/
def decodeRowA (lo r q : Nibble) : Option Shape :=
  match lo.toNat with
  | 0 => some (.two fun a => .mpm r (longOf q a))
  | 1 => some (.two fun a => .dvm r (longOf q a))
  | 2 =>
      if !r.getLsbD 0 then some (.one (.mprd (clearLow r) q))
      else some (.two fun a => .mpmd (clearLow r) (longOf q a))
  | 3 =>
      if !r.getLsbD 0 then some (.one (.dvrd (clearLow r) q))
      else some (.two fun a => .dvmd (clearLow r) (longOf q a))
  | 4 => some (.two fun a => .lfm r (longOf q a))
  | 5 => some (.two fun a => .sfm r (longOf q a))
  | 6 =>
      if r.getLsbD 3 then some (.one (.hnh (hopField r q)))
      else some (.one (.hhi (hopField r q)))
  | 7 =>
      match r.toNat with
      | 0 => some (.two fun a => .blns q a)
      | 1 => some (.two fun a => .blzs q a)
      | 2 => some (.two fun a => .blos q a)
      | 3 => some (.two fun a => .blcs q a)
      | 4 => some (.two fun a => .blls q a)
      | 5 => some (.two fun a => .blle q a)
      | 6 => some (.two fun a => .blhi q a)
      | 8 => some (.two fun a => .blnr q a)
      | 9 => some (.two fun a => .blzr q a)
      | 10 => some (.two fun a => .blor q a)
      | 11 => some (.two fun a => .blcr q a)
      | 12 => some (.two fun a => .blge q a)
      | 13 => some (.two fun a => .blgt q a)
      | 14 => some (.two fun a => .blnh q a)
      | _ => none
  | 8 =>
      if r.getLsbD 3 then some (.one (.hnr (hopField r q)))
      else some (.one (.hns (hopField r q)))
  | 9 =>
      if r.getLsbD 3 then some (.one (.hzr (hopField r q)))
      else some (.one (.hzs (hopField r q)))
  | 10 =>
      if r.getLsbD 3 then some (.one (.hor (hopField r q)))
      else some (.one (.hos (hopField r q)))
  | 11 =>
      if r.getLsbD 3 then some (.one (.hcr (hopField r q)))
      else some (.one (.hcs (hopField r q)))
  | 12 =>
      if !r.getLsbD 3 then some (.one (.hls (hopField r q)))
      else some (.one (.hge (hopField r q)))
  | 13 =>
      if !r.getLsbD 3 then some (.one (.hle (hopField r q)))
      else some (.one (.hgt (hopField r q)))
  | 14 => some (.one (.lbx r q))
  | 15 => some (.one (.sbx r q))
  | _ => none

/-- Row B of the op-code map (R121). -/
noncomputable def decodeRowB (lo r q : Nibble) : Option Shape :=
  match lo.toNat with
  | 0 => some (.one (.mps r q))
  | 1 => some (.one (.dvs r q))
  | 3 => some (.one (.exr r q))
  | 4 => some (.one (.lfs r q))
  | 5 => some (.one (.sfs r q))
  | 6 => some (.two fun a => .irm r (longOf q a))
  | 7 => some (.one (.irr r q))
  | 8 => some (.one (.mpx r q))
  | 9 => some (.one (.dvx r q))
  | 10 => some (.three fun a b => .plm r (longOf q a) b)
  | 11 => some (.three fun a b => .psm r (longOf q a) b)
  | 12 => some (.one (.lfx r q))
  | 13 => some (.one (.sfx r q))
  | 14 =>
      if q.getLsbD 0 then some (.one (.ldvm r (clearLow q)))
      else some (.one (.ldam r (clearLow q)))
  | 15 =>
      if q.getLsbD 0 then some (.one (.stvm r (clearLow q)))
      else some (.one (.stan r (clearLow q)))
  | _ => none

/-- Row C of the op-code map (R121). -/
def decodeRowC (lo r q : Nibble) : Option Shape :=
  match lo.toNat with
  | 0 => some (.two fun a => .admm r (longOf q a))
  | 1 => some (.two fun a => .etmm r (longOf q a))
  | 2 => some (.two fun a => .ormm r (longOf q a))
  | 3 => some (.two fun a => .crm r (longOf q a))
  | 4 => some (.three fun a b => .admb r (longOf q a) b)
  | 5 => some (.three fun a b => .etmb r (longOf q a) b)
  | 6 => some (.three fun a b => .trmb r (longOf q a) b)
  | 7 => some (.four fun a b c => .crmb r (longOf q a) b c)
  | 9 =>
      if !r.getLsbD 0 then some (.one (.surd (clearLow r) q))
      else some (.two fun a => .sumd (clearLow r) (longOf q a))
  | 11 =>
      if r.getLsbD 0 then some (.two fun a => .admd (clearLow r) (longOf q a))
      else none
  | 13 =>
      if r.getLsbD 0 then some (.two fun a => .ldmd (clearLow r) (longOf q a))
      else some (.one (.trrd (clearLow r) q))
  | 14 =>
      if r.getLsbD 0 then some (.two fun a => .stmd (clearLow r) (longOf q a))
      else none
  | 15 =>
      if !r.getLsbD 0 then some (.one (.crrd (clearLow r) q))
      else some (.two fun a => .crmd (clearLow r) (longOf q a))
  | _ => none

/-- Row D of the op-code map (R121). -/
def decodeRowD (lo r q : Nibble) : Option Shape :=
  match lo.toNat with
  | 0 => some (.one (.adsm r q))
  | 1 => some (.one (.etsm r q))
  | 2 => some (.one (.orsm r q))
  | 3 => some (.one (.crs r q))
  | 4 => some (.two fun a => .adsb r q a)
  | 5 => some (.two fun a => .etsb r q a)
  | 6 => some (.two fun a => .trsb r q a)
  | 7 => some (.three fun a b => .crsb r q a b)
  | 8 => some (.one (.adxm r q))
  | 9 => some (.one (.etxm r q))
  | 10 => some (.one (.orxm r q))
  | 11 => some (.one (.crx r q))
  | 12 => some (.two fun a => .adxb r q a)
  | 13 => some (.two fun a => .etxb r q a)
  | 14 => some (.two fun a => .trxb r q a)
  | 15 => some (.three fun a b => .crxb r q a b)
  | _ => none

/-- Row E of the op-code map (R121). -/
def decodeRowE (lo r q : Nibble) : Option Shape :=
  match lo.toNat with
  | 0 => some (.two fun a => .adm r (longOf q a))
  | 1 => some (.two fun a => .sum r (longOf q a))
  | 2 => some (.two fun a => .etm r (longOf q a))
  | 3 => some (.two fun a => .orm r (longOf q a))
  | 4 => some (.two fun a => .xom r (longOf q a))
  | 5 => some (.two fun a => .ldm r (longOf q a))
  | 6 => some (.two fun a => .stm r (longOf q a))
  | 7 => some (.two fun a => .blm r (longOf q a))
  | 8 => some (.two fun a => .adi r a)
  | 9 => some (.two fun a => .sui r a)
  | 10 => some (.two fun a => .eti r a)
  | 11 => some (.two fun a => .ori r a)
  | 12 => some (.two fun a => .xoi r a)
  | 13 => some (.two fun a => .ldt r a)
  | 14 => some (.two fun a => .sti r a)
  | 15 => some (.one (.bli r))
  | _ => none

/-- Row F of the op-code map (R121). -/
def decodeRowF (lo r q : Nibble) : Option Shape :=
  match lo.toNat with
  | 0 => some (.one (.ads r q))
  | 1 => some (.one (.sus r q))
  | 2 => some (.one (.ets r q))
  | 3 => some (.one (.ors r q))
  | 4 => some (.one (.xos r q))
  | 5 => some (.one (.lds r q))
  | 6 => some (.one (.sts r q))
  | 7 =>
      if !r.getLsbD 3 then some (.one (.hop (hopField r q)))
      else some (.one (.blt (hopField r q)))
  | 8 => some (.one (.adx r q))
  | 9 => some (.one (.sux r q))
  | 10 => some (.one (.etx r q))
  | 11 => some (.one (.orx r q))
  | 12 => some (.one (.xox r q))
  | 13 => some (.one (.ldx r q))
  | 14 => some (.one (.stx r q))
  | 15 => some (.one (.blx r q))
  | _ => none

/-- The row of the op-code map a word belongs to (R121, R124 steps 1 to 4); none where no row matches (R122). -/
noncomputable def decodeOp (op : Byte) (r q : Nibble) : Option Shape :=
  match (op.extractLsb' 4 4).toNat with
  | 0 => decodeRow0 (op.extractLsb' 0 4) r q
  | 2 => decodeRow2 (op.extractLsb' 0 4) r q
  | 3 => decodeRow3 (op.extractLsb' 0 4) r q
  | 4 => decodeRow4 (op.extractLsb' 0 4) r q
  | 6 => decodeRow6 (op.extractLsb' 0 4) r q
  | 7 => decodeRow7 (op.extractLsb' 0 4) r q
  | 8 => decodeRow8 (op.extractLsb' 0 4) r q
  | 9 => decodeRow9 (op.extractLsb' 0 4) r q
  | 10 => decodeRowA (op.extractLsb' 0 4) r q
  | 11 => decodeRowB (op.extractLsb' 0 4) r q
  | 12 => decodeRowC (op.extractLsb' 0 4) r q
  | 13 => decodeRowD (op.extractLsb' 0 4) r q
  | 14 => decodeRowE (op.extractLsb' 0 4) r q
  | 15 => decodeRowF (op.extractLsb' 0 4) r q
  | _ => none

/-- The word belongs to a row whose encoding a parameter gives (R123). -/
def matchesRow (w : Word) (e : Option RowCode) : Bool :=
  match e with
  | some e => w &&& e.mask == e.code
  | none => false

/-- Decoding of the first word: the two parameter rows where they have an encoding (R123), then the op-code map. -/
noncomputable def decodeHead (w : Word) : Option Shape :=
  if matchesRow w Config.criEncoding then some (.two fun v => .cri (rNibble w) v)
  else if matchesRow w Config.scccEncoding then some (.one (.sccc (rNibble w)))
  else decodeOp (opByte w) (rNibble w) (sNibble w)

/-- Decoding of an instruction at the front of a list of words (R124). -/
noncomputable def decodeWords : List Word → Except DecodeError (Instr × List Word)
  | [] => .error .truncated
  | w :: ws =>
    match decodeHead w with
    | none => .error .unimplemented
    | some sh => sh.read ws

/-- A word from its left and right byte (spec/20_memory.md R61). -/
def wordOfBytes (l r : Byte) : Word := l ++ r

/-- The left (upper) byte of a word, bits 0-7 (R61). -/
def leftByte (w : Word) : Byte := w.extractLsb' 8 8

/-- The right (lower) byte of a word, bits 8-15 (R61). -/
def rightByte (w : Word) : Byte := w.extractLsb' 0 8

/-- Words as memory holds them: the left byte first (R61). -/
def bytesOfWords : List Word → List Byte
  | [] => []
  | w :: ws => leftByte w :: rightByte w :: bytesOfWords ws

/-- The whole words at the front of a list of bytes (R61); an odd byte at the end is dropped. -/
def wordsOfBytes : List Byte → List Word
  | l :: r :: bs => wordOfBytes l r :: wordsOfBytes bs
  | _ => []

/-- Decoding of any bytes: the instruction at their front and the words after it, or why there is none. -/
noncomputable def decode (bs : List Byte) : Except DecodeError (Instr × List Word) := decodeWords (wordsOfBytes bs)

/-- The words of an instruction (R120); none for a row without an encoding (R123). NOP is F701 (R111). -/
def encode (i : Instr) : List Word :=
  match i with
  | .lbr r n => [joinWord 0x65#8 r n]
  | .lbrb r n b => [joinWord 0x75#8 r n, b]
  | .lbx r x => [joinWord 0xAE#8 r x]
  | .ldm r m => [joinWord 0xE5#8 r (longNibble m), m.a]
  | .ldmd r m => [joinWord 0xCD#8 (r ||| 0x1#4) (longNibble m), m.a]
  | .ldt r v => [joinWord 0xED#8 r 0x0#4, v]
  | .lds r d => [joinWord 0xF5#8 r d]
  | .ldx r x => [joinWord 0xFD#8 r x]
  | .ldxd r x => [joinWord 0x8D#8 (r ||| 0x1#4) x]
  | .lfm r m => [joinWord 0xA4#8 r (longNibble m), m.a]
  | .lfs r d => [joinWord 0xB4#8 r d]
  | .lfx r x => [joinWord 0xBC#8 r x]
  | .sbx r x => [joinWord 0xAF#8 r x]
  | .stm r m => [joinWord 0xE6#8 r (longNibble m), m.a]
  | .stmd r m => [joinWord 0xCE#8 (r ||| 0x1#4) (longNibble m), m.a]
  | .sti r v => [joinWord 0xEE#8 r 0x0#4, v]
  | .sts r d => [joinWord 0xF6#8 r d]
  | .stx r x => [joinWord 0xFE#8 r x]
  | .stxd r x => [joinWord 0x8E#8 (r ||| 0x1#4) x]
  | .sfm r m => [joinWord 0xA5#8 r (longNibble m), m.a]
  | .sfs r d => [joinWord 0xB5#8 r d]
  | .sfx r x => [joinWord 0xBD#8 r x]
  | .plm r m counts => [joinWord 0xBA#8 r (longNibble m), m.a, counts]
  | .psm r m counts => [joinWord 0xBB#8 r (longNibble m), m.a, counts]
  | .mlr r q => [joinWord 0x0C#8 r q]
  | .mbr r q => [joinWord 0x08#8 r q]
  | .mur r q => [joinWord 0x0B#8 r q]
  | .mbl r q => [joinWord 0x09#8 r q]
  | .ibr r q => [joinWord 0x0A#8 r q]
  | .irm r m => [joinWord 0xB6#8 r (longNibble m), m.a]
  | .irr r q => [joinWord 0xB7#8 r q]
  | .trr r q => [joinWord 0x6D#8 r q]
  | .trrb r q b => [joinWord 0x7D#8 r q, b]
  | .trrd r q => [joinWord 0xCD#8 r q]
  | .trrq r q => [joinWord 0x8D#8 r q]
  | .ras r c => [joinWord 0x2B#8 r c]
  | .rad r c => [joinWord 0x2A#8 r c]
  | .raq r c => [joinWord 0x2A#8 (r ||| 0x1#4) c]
  | .las r c => [joinWord 0x2F#8 r c]
  | .lad r c => [joinWord 0x2E#8 r c]
  | .laq r c => [joinWord 0x2E#8 (r ||| 0x1#4) c]
  | .rls r c => [joinWord 0x29#8 r c]
  | .rld r c => [joinWord 0x28#8 r c]
  | .rlq r c => [joinWord 0x28#8 (r ||| 0x1#4) c]
  | .lls r c => [joinWord 0x2D#8 r c]
  | .lld r c => [joinWord 0x2C#8 r c]
  | .llq r c => [joinWord 0x2C#8 (r ||| 0x1#4) c]
  | .lrs r q => [joinWord 0x0F#8 r q]
  | .gmr r n => [joinWord 0x67#8 r n]
  | .gmrb r n b => [joinWord 0x77#8 r n, b]
  | .zbr r n => [joinWord 0x62#8 r n]
  | .zbrb r n b => [joinWord 0x72#8 r n, b]
  | .zbmm n m => [joinWord 0x81#8 n (longNibble m), m.a]
  | .zmmb n m b => [joinWord 0x85#8 n (longNibble m), m.a, b]
  | .zbsm n d => [joinWord 0x91#8 n d]
  | .zbsb n d b => [joinWord 0x95#8 n d, b]
  | .zbxm n x => [joinWord 0x99#8 n x]
  | .zbxb n x b => [joinWord 0x9D#8 n x, b]
  | .etr r q => [joinWord 0x6A#8 r q]
  | .etrb r q b => [joinWord 0x7A#8 r q, b]
  | .etmm r m => [joinWord 0xC1#8 r (longNibble m), m.a]
  | .etmb r m b => [joinWord 0xC5#8 r (longNibble m), m.a, b]
  | .etsm r d => [joinWord 0xD1#8 r d]
  | .etsb r d b => [joinWord 0xD5#8 r d, b]
  | .etxm r x => [joinWord 0xD9#8 r x]
  | .etxb r x b => [joinWord 0xDD#8 r x, b]
  | .etm r m => [joinWord 0xE2#8 r (longNibble m), m.a]
  | .eti r v => [joinWord 0xEA#8 r 0x0#4, v]
  | .ets r d => [joinWord 0xF2#8 r d]
  | .etx r x => [joinWord 0xFA#8 r x]
  | .obr r n => [joinWord 0x63#8 r n]
  | .obrb r n b => [joinWord 0x73#8 r n, b]
  | .obmm n m => [joinWord 0x82#8 n (longNibble m), m.a]
  | .obsm n d => [joinWord 0x92#8 n d]
  | .obxm n x => [joinWord 0x9A#8 n x]
  | .orr r q => [joinWord 0x6B#8 r q]
  | .orrb r q b => [joinWord 0x7B#8 r q, b]
  | .ormm r m => [joinWord 0xC2#8 r (longNibble m), m.a]
  | .orsm r d => [joinWord 0xD2#8 r d]
  | .orxm r x => [joinWord 0xDA#8 r x]
  | .orm r m => [joinWord 0xE3#8 r (longNibble m), m.a]
  | .ori r v => [joinWord 0xEB#8 r 0x0#4, v]
  | .ors r d => [joinWord 0xF3#8 r d]
  | .orx r x => [joinWord 0xFB#8 r x]
  | .xbr r n => [joinWord 0x64#8 r n]
  | .xbrb r n b => [joinWord 0x74#8 r n, b]
  | .xor r q => [joinWord 0x6C#8 r q]
  | .xorb r q b => [joinWord 0x7C#8 r q, b]
  | .xom r m => [joinWord 0xE4#8 r (longNibble m), m.a]
  | .xoi r v => [joinWord 0xEC#8 r 0x0#4, v]
  | .xos r d => [joinWord 0xF4#8 r d]
  | .xox r x => [joinWord 0xFC#8 r x]
  | .tor r q => [joinWord 0x0D#8 r q]
  | .cbmb n m b1 b2 => [joinWord 0x87#8 n (longNibble m), m.a, b1, b2]
  | .cbsb n d b1 b2 => [joinWord 0x97#8 n d, b1, b2]
  | .cbxb n x b1 b2 => [joinWord 0x9F#8 n x, b1, b2]
  | .crr r q => [joinWord 0x6E#8 r q]
  | .crrd r q => [joinWord 0xCF#8 r q]
  | .crm r m => [joinWord 0xC3#8 r (longNibble m), m.a]
  | .crmb r m b1 b2 => [joinWord 0xC7#8 r (longNibble m), m.a, b1, b2]
  | .crmd r m => [joinWord 0xCF#8 (r ||| 0x1#4) (longNibble m), m.a]
  | .cri r v => match Config.criEncoding with
    | some e => [e.code ||| joinWord 0#8 r 0#4, v]
    | none => []
  | .crs r d => [joinWord 0xD3#8 r d]
  | .crsb r d b1 b2 => [joinWord 0xD7#8 r d, b1, b2]
  | .crx r x => [joinWord 0xDB#8 r x]
  | .crxb r x b1 b2 => [joinWord 0xDF#8 r x, b1, b2]
  | .tbr r n => [joinWord 0x66#8 r n]
  | .tbrb r n b => [joinWord 0x76#8 r n, b]
  | .tbmm n m => [joinWord 0x83#8 n (longNibble m), m.a]
  | .tbmb n m b => [joinWord 0x86#8 n (longNibble m), m.a, b]
  | .tbsm n d => [joinWord 0x93#8 n d]
  | .tbsb n d b => [joinWord 0x96#8 n d, b]
  | .tbxm n x => [joinWord 0x9B#8 n x]
  | .tbxb n x b => [joinWord 0x9E#8 n x, b]
  | .tek r q b => [joinWord 0x7E#8 r q, b]
  | .trmb r m b => [joinWord 0xC6#8 r (longNibble m), m.a, b]
  | .trsb r d b => [joinWord 0xD6#8 r d, b]
  | .trxb r x b => [joinWord 0xDE#8 r x, b]
  | .hop n => [joinWord 0xF7#8 (hopHigh false n) (hopLow n)]
  | .hzr n => [joinWord 0xA9#8 (hopHigh true n) (hopLow n)]
  | .hzs n => [joinWord 0xA9#8 (hopHigh false n) (hopLow n)]
  | .hnr n => [joinWord 0xA8#8 (hopHigh true n) (hopLow n)]
  | .hns n => [joinWord 0xA8#8 (hopHigh false n) (hopLow n)]
  | .hcr n => [joinWord 0xAB#8 (hopHigh true n) (hopLow n)]
  | .hcs n => [joinWord 0xAB#8 (hopHigh false n) (hopLow n)]
  | .hor n => [joinWord 0xAA#8 (hopHigh true n) (hopLow n)]
  | .hos n => [joinWord 0xAA#8 (hopHigh false n) (hopLow n)]
  | .hls n => [joinWord 0xAC#8 (hopHigh false n) (hopLow n)]
  | .hle n => [joinWord 0xAD#8 (hopHigh false n) (hopLow n)]
  | .hge n => [joinWord 0xAC#8 (hopHigh true n) (hopLow n)]
  | .hgt n => [joinWord 0xAD#8 (hopHigh true n) (hopLow n)]
  | .hnh n => [joinWord 0xA6#8 (hopHigh true n) (hopLow n)]
  | .hhi n => [joinWord 0xA6#8 (hopHigh false n) (hopLow n)]
  | .bxr x => [joinWord 0x8F#8 0x9#4 x]
  | .bxs x => [joinWord 0x8F#8 0x1#4 x]
  | .bxnr x => [joinWord 0x8F#8 0x8#4 x]
  | .bxns x => [joinWord 0x8F#8 0x0#4 x]
  | .bxcr x => [joinWord 0x8F#8 0xB#4 x]
  | .bxcs x => [joinWord 0x8F#8 0x3#4 x]
  | .bxor x => [joinWord 0x8F#8 0xA#4 x]
  | .bxos x => [joinWord 0x8F#8 0x2#4 x]
  | .bxls x => [joinWord 0x8F#8 0x4#4 x]
  | .bxle x => [joinWord 0x8F#8 0x5#4 x]
  | .bxge x => [joinWord 0x8F#8 0xC#4 x]
  | .bxgt x => [joinWord 0x8F#8 0xD#4 x]
  | .bxnh x => [joinWord 0x8F#8 0xE#4 x]
  | .bxhi x => [joinWord 0x8F#8 0x6#4 x]
  | .blm r m => [joinWord 0xE7#8 r (longNibble m), m.a]
  | .bli r => [joinWord 0xEF#8 r 0x0#4]
  | .blx r x => [joinWord 0xFF#8 r x]
  | .blt n => [joinWord 0xF7#8 (hopHigh true n) (hopLow n)]
  | .blzr r b => [joinWord 0xA7#8 0x9#4 r, b]
  | .blzs r b => [joinWord 0xA7#8 0x1#4 r, b]
  | .blnr r b => [joinWord 0xA7#8 0x8#4 r, b]
  | .blns r b => [joinWord 0xA7#8 0x0#4 r, b]
  | .blcr r b => [joinWord 0xA7#8 0xB#4 r, b]
  | .blcs r b => [joinWord 0xA7#8 0x3#4 r, b]
  | .blor r b => [joinWord 0xA7#8 0xA#4 r, b]
  | .blos r b => [joinWord 0xA7#8 0x2#4 r, b]
  | .blls r b => [joinWord 0xA7#8 0x4#4 r, b]
  | .blle r b => [joinWord 0xA7#8 0x5#4 r, b]
  | .blge r b => [joinWord 0xA7#8 0xC#4 r, b]
  | .blgt r b => [joinWord 0xA7#8 0xD#4 r, b]
  | .blnh r b => [joinWord 0xA7#8 0xE#4 r, b]
  | .blhi r b => [joinWord 0xA7#8 0x6#4 r, b]
  | .abr r n => [joinWord 0x60#8 r n]
  | .abrb r n b => [joinWord 0x70#8 r n, b]
  | .abmm n m => [joinWord 0x80#8 n (longNibble m), m.a]
  | .abmb n m b => [joinWord 0x84#8 n (longNibble m), m.a, b]
  | .absm n d => [joinWord 0x90#8 n d]
  | .absb n d b => [joinWord 0x94#8 n d, b]
  | .abxm n x => [joinWord 0x98#8 n x]
  | .abxb n x b => [joinWord 0x9C#8 n x, b]
  | .adr r q => [joinWord 0x68#8 r q]
  | .adrb r q b => [joinWord 0x78#8 r q, b]
  | .adrd r q => [joinWord 0x22#8 r q]
  | .admm r m => [joinWord 0xC0#8 r (longNibble m), m.a]
  | .admb r m b => [joinWord 0xC4#8 r (longNibble m), m.a, b]
  | .adsm r d => [joinWord 0xD0#8 r d]
  | .adsb r d b => [joinWord 0xD4#8 r d, b]
  | .adxm r x => [joinWord 0xD8#8 r x]
  | .adxb r x b => [joinWord 0xDC#8 r x, b]
  | .adm r m => [joinWord 0xE0#8 r (longNibble m), m.a]
  | .admd r m => [joinWord 0xCB#8 (r ||| 0x1#4) (longNibble m), m.a]
  | .adi r v => [joinWord 0xE8#8 r 0x0#4, v]
  | .ads r d => [joinWord 0xF0#8 r d]
  | .adx r x => [joinWord 0xF8#8 r x]
  | .sbr r n => [joinWord 0x61#8 r n]
  | .sbrb r n b => [joinWord 0x71#8 r n, b]
  | .sur r q => [joinWord 0x69#8 r q]
  | .surb r q b => [joinWord 0x79#8 r q, b]
  | .surd r q => [joinWord 0xC9#8 r q]
  | .sum r m => [joinWord 0xE1#8 r (longNibble m), m.a]
  | .sumd r m => [joinWord 0xC9#8 (r ||| 0x1#4) (longNibble m), m.a]
  | .sui r v => [joinWord 0xE9#8 r 0x0#4, v]
  | .sus r d => [joinWord 0xF1#8 r d]
  | .sux r x => [joinWord 0xF9#8 r x]
  | .mpr r q => [joinWord 0x20#8 r q]
  | .mprd r q => [joinWord 0xA2#8 r q]
  | .mpm r m => [joinWord 0xA0#8 r (longNibble m), m.a]
  | .mpmd r m => [joinWord 0xA2#8 (r ||| 0x1#4) (longNibble m), m.a]
  | .mps r d => [joinWord 0xB0#8 r d]
  | .mpx r x => [joinWord 0xB8#8 r x]
  | .dvr r q => [joinWord 0x21#8 r q]
  | .dvrd r q => [joinWord 0xA3#8 r q]
  | .dvm r m => [joinWord 0xA1#8 r (longNibble m), m.a]
  | .dvmd r m => [joinWord 0xA3#8 (r ||| 0x1#4) (longNibble m), m.a]
  | .dvs r d => [joinWord 0xB1#8 r d]
  | .dvx r x => [joinWord 0xB9#8 r x]
  | .ttr r q => [joinWord 0x6F#8 r q]
  | .ttrb r q b => [joinWord 0x7F#8 r q, b]
  | .ttrd r q => [joinWord 0x8A#8 r q]
  | .ttrq r q => [joinWord 0x8B#8 r q]
  | .ess r q => [joinWord 0x8C#8 (r ||| 0x1#4) q]
  | .esd r q => [joinWord 0x8C#8 r q]
  | .far r q => [joinWord 0x30#8 r q]
  | .fard r q => [joinWord 0x34#8 r q]
  | .farq r q => [joinWord 0x34#8 (r ||| 0x1#4) q]
  | .fam r m => [joinWord 0x38#8 r (longNibble m), m.a]
  | .famd r m => [joinWord 0x3C#8 r (longNibble m), m.a]
  | .famq r m => [joinWord 0x3C#8 (r ||| 0x1#4) (longNibble m), m.a]
  | .fsr r q => [joinWord 0x31#8 r q]
  | .fsrd r q => [joinWord 0x35#8 r q]
  | .fsrq r q => [joinWord 0x35#8 (r ||| 0x1#4) q]
  | .fsm r m => [joinWord 0x39#8 r (longNibble m), m.a]
  | .fsmd r m => [joinWord 0x3D#8 r (longNibble m), m.a]
  | .fsmq r m => [joinWord 0x3D#8 (r ||| 0x1#4) (longNibble m), m.a]
  | .fmr r q => [joinWord 0x32#8 r q]
  | .fmrd r q => [joinWord 0x36#8 r q]
  | .fmrq r q => [joinWord 0x36#8 (r ||| 0x1#4) q]
  | .fmm r m => [joinWord 0x3A#8 r (longNibble m), m.a]
  | .fmmd r m => [joinWord 0x3E#8 r (longNibble m), m.a]
  | .fmmq r m => [joinWord 0x3E#8 (r ||| 0x1#4) (longNibble m), m.a]
  | .fdr r q => [joinWord 0x33#8 r q]
  | .fdrd r q => [joinWord 0x37#8 r q]
  | .fdrq r q => [joinWord 0x37#8 (r ||| 0x1#4) q]
  | .fdm r m => [joinWord 0x3B#8 r (longNibble m), m.a]
  | .fdmd r m => [joinWord 0x3F#8 r (longNibble m), m.a]
  | .fdmq r m => [joinWord 0x3F#8 (r ||| 0x1#4) (longNibble m), m.a]
  | .cdie r q => [joinWord 0x30#8 r (q ||| 0x1#4)]
  | .cfdi r q => [joinWord 0x34#8 r (q ||| 0x1#4)]
  | .coff r q => [joinWord 0x35#8 r (q ||| 0x1#4)]
  | .rex sn => [joinWord 0x23#8 (sn.extractLsb' 4 4) (sn.extractLsb' 0 4)]
  | .rmi => [joinWord 0x01#8 0x0#4 0x0#4]
  | .nop => [0xF701#16]
  | .exr r q => [joinWord 0xB3#8 r q]
  | .lcie r => [joinWord 0x0E#8 r 0x5#4]
  | .lcia r => [joinWord 0x0E#8 r 0x4#4]
  | .lcip r => [joinWord 0x0E#8 r 0x6#4]
  | .lccc r => [joinWord 0x0E#8 r 0x3#4]
  | .lcps r => [joinWord 0x0E#8 r 0x2#4]
  | .lcpr r => [joinWord 0x0E#8 r 0x1#4]
  | .sccc r => match Config.scccEncoding with
    | some e => [e.code ||| joinWord 0#8 r 0#4]
    | none => []
  | .tdr => [joinWord 0x0E#8 0x0#4 0x0#4]
  | .hlt => [joinWord 0x00#8 0x0#4 0x0#4]
  | .evmo => [joinWord 0x01#8 0x1#4 0x0#4]
  | .mrrbRm r x => [joinWord 0x07#8 r x]
  | .mrrbMr r x => [joinWord 0x06#8 r x]
  | .scrb => [joinWord 0x01#8 0x5#4 0x0#4]
  | .mabi => [joinWord 0x01#8 0x8#4 0x0#4]
  | .amem r => [joinWord 0x01#8 0xC#4 r]
  | .dmeh r => [joinWord 0x01#8 0xA#4 r]
  | .limp r => [joinWord 0x01#8 0xD#4 r]
  | .lomp r => [joinWord 0x01#8 0xE#4 r]
  | .zimp r => [joinWord 0x01#8 0x9#4 r]
  | .zomp r => [joinWord 0x01#8 0x8#4 r]
  | .siom r => [joinWord 0x01#8 0x2#4 r]
  | .soom r => [joinWord 0x01#8 0x3#4 r]
  | .szom => [joinWord 0x01#8 0x4#4 0x0#4]
  | .ldvm r p => [joinWord 0xBE#8 r (p ||| 0x1#4)]
  | .ldam r p => [joinWord 0xBE#8 r p]
  | .stvm r p => [joinWord 0xBF#8 r (p ||| 0x1#4)]
  | .stan r p => [joinWord 0xBF#8 r p]
  | .spr => [joinWord 0x02#8 0x0#4 0x0#4]
  | .sgp pr => [joinWord 0x02#8 0x8#4 pr]
  | .slp pr => [joinWord 0x03#8 0x0#4 pr]
  | .sup pr => [joinWord 0x04#8 0x0#4 pr]
  | .sie l => [joinWord 0x26#8 0x4#4 l]
  | .sia l => [joinWord 0x26#8 0x0#4 l]
  | .sir l => [joinWord 0x26#8 0x8#4 l]
  | .rie l => [joinWord 0x27#8 0x4#4 l]
  | .ria l => [joinWord 0x27#8 0x0#4 l]
  | .rir l => [joinWord 0x27#8 0x8#4 l]
  | .car r => [joinWord 0x24#8 0x0#4 r]
  | .cir r => [joinWord 0x25#8 0x0#4 r]
  | .isi j r u => [joinWord (0x48#8 ||| j.zeroExtend 8) r u]
  | .idi j r u => [joinWord (0x4C#8 ||| j.zeroExtend 8) r u]
  | .oci j r u => [joinWord (0x40#8 ||| j.zeroExtend 8) r u]
  | .odi j r u => [joinWord (0x44#8 ||| j.zeroExtend 8) r u]
  | .dmpi r ch => [joinWord 0x05#8 r ch]

/-- The number of the table's bits as words: bit 0 of `w` is the least significant bit of the first word, a later word's
bits count on from it, and every bit from `nbits` up is 0. Four words, the longest instruction (R100). -/
def tableWords (nbits w : Nat) : List Word :=
  let v := w % 2 ^ nbits
  [BitVec.ofNat 16 v, BitVec.ofNat 16 (v >>> 16), BitVec.ofNat 16 (v >>> 32), BitVec.ofNat 16 (v >>> 48)]

/-- The instruction the decoder reads from an instruction whose bits are `w`, numbered as spec/opcode_table.json numbers
them: the words are laid out as bytes and decoded. -/
noncomputable def decodeTableWord (nbits w : Nat) : Option Instr :=
  match decode (bytesOfWords (tableWords nbits w)) with
  | .ok (i, _) => some i
  | .error _ => none

end Sys2Proof
end

