-- ==== Sys2Proof/Machine/Fetch.lean ====
section
/-! DEFINITION. Fetching the instruction at pc: its first word, then the words its row has after it, all before it runs
(spec/20_memory.md R78 (1), R661); and the placing of an instruction where the next fetch finds it. -/

namespace Sys2Proof.Machine

/-- The words of the instruction at pc are fetched in ascending order and read as an instruction, which `run` executes; a word
that matches no row raises UnimplementedInstruction (R124, R603). -/
noncomputable def fetchAndRun (run : Instr → State → Res State) (s : State) : Res State :=
  Res.bind (loadWord s.pc s) fun w =>
    match decodeHead w with
    | none => raiseEvent .unimplementedInstruction s
    | some shape => Res.bind (loadWords (s.pc + 1) shape.extra s) fun ws =>
      match shape.read ws with
      | .ok (i, _) => run i s
      | .error _ => raiseEvent .unimplementedInstruction s

/-- The one-word region of an address, where the address does not exist yet. -/
def missingRegion (s : State) (a : Word) : List Region := if s.launched a then [] else [⟨a.toNat, 1⟩]

/-- The state with the four words of an instruction at pc, in the launch memory, running, with nothing between it and the
fetch: no request of the executive waits, and where an interrupt would be taken first the enable latches are clear. -/
def placeAtFetch (s : State) (ws : List Word) : State :=
  { s with
    run := .running
    pending := none
    mem := s.mem.writeWords s.pc ws
    launch := missingRegion s s.pc ++ missingRegion s (s.pc + 1) ++ missingRegion s (s.pc + 2) ++ missingRegion s (s.pc + 3)
      ++ s.launch
    ie := if (recognise (takeRequests s)).isSome then 0#16 else s.ie }

end Sys2Proof.Machine
end

