-- ==== Sys2Proof/Machine/Step.lean ====
section
/-! DEFINITION. One step of the machine (spec/00_scope.md R5, spec/60_exceptions.md R606). -/

namespace Sys2Proof.Machine

/-- One step. A halted machine takes none (R655). A request of the executive that waits is answered (R604). Otherwise, at the
boundary between two instructions, the environment sets request latches and the interrupt to take is looked for (R605, R606):
that interrupt is the step, or, where there is none, the instruction at pc is. R605 and R606 speak of the time between two steps;
that the same is done before the very first instruction of a run is a DESIGN CHOICE: log 29. -/
noncomputable def step (s : State) : Host.Outcome State Fault Refusal :=
  match s.run, s.pending with
  | .halted, _ => .fault .halted
  | .running, some sn => executiveTurn sn s
  | .running, none =>
    match recognise (takeRequests s) with
    | some level => raiseEvent (.interrupt level) (takeRequests s)
    | none => fetchAndRun exec (takeRequests s)

/-- The instruction whose bits are `w`, numbered as spec/opcode_table.json numbers them, placed where the next step fetches it
(log 7). -/
def State.withFetchWord (s : State) (nbits w : Nat) : State := placeAtFetch s (tableWords nbits w)

end Sys2Proof.Machine
end

