-- ==== Sys2Proof/Safety.lean ====
section
/-! DEFINITION. The vocabulary statements are written in: the rows of the card by shape, the codes a row sets as arithmetic on
integers, what a step leaves alone, and runs. -/

namespace Sys2Proof.Machine

/-! ### The rows of the card by shape -/

/-- A row with a register destination: width, destination, source, ending. -/
structure RegisterRow where
  k : Width
  r : Reg
  src : Src k
  nx : Next

/-- A row with a memory destination: where it stands, source, ending. -/
structure MemoryRow where
  o : MemOperand
  src : Src .single
  nx : Next

/-- A row that sets codes only: width, the two operands, ending. -/
structure InspectRow where
  k : Width
  first : Src k
  second : Src k
  nx : Next

/-- A store: width, register, where to, length. -/
structure StoreRow where
  k : Width
  r : Reg
  o : MemOperand
  words : Nat

/-- A file row: first register, where in memory, length. -/
structure FileRow where
  r : Reg
  o : MemOperand
  words : Nat

/-- A shift: kind, width, register, count. -/
structure ShiftRow where
  kind : ShiftKind
  k : Width
  r : Reg
  c : Nibble

/-- A conditional hop: condition, whether inverted, displacement field. -/
structure HopRow where
  cond : Condition
  inverted : Bool
  n : BitVec 7

/-- A short-indexed branch: condition, whether inverted, index register. -/
structure IndexedBranchRow where
  cond : Condition
  inverted : Bool
  x : Reg

/-- A conditional branch and link: condition, whether inverted, link register, target. -/
structure LinkBranchRow where
  cond : Condition
  inverted : Bool
  r : Reg
  b : Word

/-- An integer multiply or divide: register pair, operand, length. -/
structure PairRow where
  r : Reg
  src : Src .single
  words : Nat

/-- A floating-point row: operation, width, destination, source, length, whether it is an indirect memory form. -/
structure FloatRow where
  op : FloatOp
  k : Width
  r : Reg
  src : Src k
  words : Nat
  indirect : Bool

/-- The rows whose result goes to a register: what they compute, and their operands (R200-R409). -/
def registerRow : Instr → Option (Alu × RegisterRow)
  | .lbr r n => some (.transfer, ⟨.single, r, .const (bitmask n), .seq 1⟩)
  | .lbrb r n b => some (.transfer, ⟨.single, r, .const (bitmask n), .always b⟩)
  | .ldm r m => some (.copy, ⟨.single, r, .mem (.long m), .seq 2⟩)
  | .ldmd r m => some (.copy, ⟨.double, r, .mem (.long m), .seq 2⟩)
  | .ldt r v => some (.copy, ⟨.single, r, .const v, .seq 2⟩)
  | .lds r d => some (.copy, ⟨.single, r, .mem (.displaced d), .seq 1⟩)
  | .ldx r x => some (.copy, ⟨.single, r, .mem (.indexed x), .seq 1⟩)
  | .ldxd r x => some (.copy, ⟨.double, r, .mem (.indexed x), .seq 1⟩)
  | .trr r q => some (.transfer, ⟨.single, r, .reg q, .seq 1⟩)
  | .trrb r q b => some (.transfer, ⟨.single, r, .reg q, .nonzero 2 b⟩)
  | .trrd r q => some (.transfer, ⟨.double, r, .reg q, .seq 1⟩)
  | .trrq r q => some (.transfer, ⟨.quad, r, .reg q, .seq 1⟩)
  | .gmr r n => some (.generateMask, ⟨.single, r, .const (bitmask n), .seq 1⟩)
  | .gmrb r n b => some (.generateMask, ⟨.single, r, .const (bitmask n), .always b⟩)
  | .zbr r n => some (.zeroBit, ⟨.single, r, .const (bitmask n), .seq 1⟩)
  | .zbrb r n b => some (.zeroBit, ⟨.single, r, .const (bitmask n), .nonzero 2 b⟩)
  | .etr r q => some (.extract, ⟨.single, r, .reg q, .seq 1⟩)
  | .etrb r q b => some (.extract, ⟨.single, r, .reg q, .nonzero 2 b⟩)
  | .etm r m => some (.extract, ⟨.single, r, .mem (.long m), .seq 2⟩)
  | .eti r v => some (.extract, ⟨.single, r, .const v, .seq 2⟩)
  | .ets r d => some (.extract, ⟨.single, r, .mem (.displaced d), .seq 1⟩)
  | .etx r x => some (.extract, ⟨.single, r, .mem (.indexed x), .seq 1⟩)
  | .obr r n => some (.setBit, ⟨.single, r, .const (bitmask n), .seq 1⟩)
  | .obrb r n b => some (.setBit, ⟨.single, r, .const (bitmask n), .always b⟩)
  | .orr r q => some (.inclusiveOr, ⟨.single, r, .reg q, .seq 1⟩)
  | .orrb r q b => some (.inclusiveOr, ⟨.single, r, .reg q, .nonzero 2 b⟩)
  | .orm r m => some (.inclusiveOr, ⟨.single, r, .mem (.long m), .seq 2⟩)
  | .ori r v => some (.inclusiveOr, ⟨.single, r, .const v, .seq 2⟩)
  | .ors r d => some (.inclusiveOr, ⟨.single, r, .mem (.displaced d), .seq 1⟩)
  | .orx r x => some (.inclusiveOr, ⟨.single, r, .mem (.indexed x), .seq 1⟩)
  | .xbr r n => some (.flipBit, ⟨.single, r, .const (bitmask n), .seq 1⟩)
  | .xbrb r n b => some (.flipBit, ⟨.single, r, .const (bitmask n), .nonzero 2 b⟩)
  | .xor r q => some (.exclusiveOr, ⟨.single, r, .reg q, .seq 1⟩)
  | .xorb r q b => some (.exclusiveOr, ⟨.single, r, .reg q, .nonzero 2 b⟩)
  | .xom r m => some (.exclusiveOr, ⟨.single, r, .mem (.long m), .seq 2⟩)
  | .xoi r v => some (.exclusiveOr, ⟨.single, r, .const v, .seq 2⟩)
  | .xos r d => some (.exclusiveOr, ⟨.single, r, .mem (.displaced d), .seq 1⟩)
  | .xox r x => some (.exclusiveOr, ⟨.single, r, .mem (.indexed x), .seq 1⟩)
  | .tor r q => some (.complement, ⟨.single, r, .reg q, .seq 1⟩)
  | .abr r n => some (.add, ⟨.single, r, .const (bitmask n), .seq 1⟩)
  | .abrb r n b => some (.add, ⟨.single, r, .const (bitmask n), .nonzero 2 b⟩)
  | .adr r q => some (.add, ⟨.single, r, .reg q, .seq 1⟩)
  | .adrb r q b => some (.add, ⟨.single, r, .reg q, .nonzero 2 b⟩)
  | .adrd r q => some (.add, ⟨.double, r, .reg q, .seq 1⟩)
  | .adm r m => some (.add, ⟨.single, r, .mem (.long m), .seq 2⟩)
  | .admd r m => some (.add, ⟨.double, r, .mem (.long m), .seq 2⟩)
  | .adi r v => some (.add, ⟨.single, r, .const v, .seq 2⟩)
  | .ads r d => some (.add, ⟨.single, r, .mem (.displaced d), .seq 1⟩)
  | .adx r x => some (.add, ⟨.single, r, .mem (.indexed x), .seq 1⟩)
  | .sbr r n => some (.subtract, ⟨.single, r, .const (bitmask n), .seq 1⟩)
  | .sbrb r n b => some (.subtract, ⟨.single, r, .const (bitmask n), .nonzero 2 b⟩)
  | .sur r q => some (.subtract, ⟨.single, r, .reg q, .seq 1⟩)
  | .surb r q b => some (.subtract, ⟨.single, r, .reg q, .nonzero 2 b⟩)
  | .surd r q => some (.subtract, ⟨.double, r, .reg q, .seq 1⟩)
  | .sum r m => some (.subtract, ⟨.single, r, .mem (.long m), .seq 2⟩)
  | .sumd r m => some (.subtract, ⟨.double, r, .mem (.long m), .seq 2⟩)
  | .sui r v => some (.subtract, ⟨.single, r, .const v, .seq 2⟩)
  | .sus r d => some (.subtract, ⟨.single, r, .mem (.displaced d), .seq 1⟩)
  | .sux r x => some (.subtract, ⟨.single, r, .mem (.indexed x), .seq 1⟩)
  | .ttr r q => some (.negate, ⟨.single, r, .reg q, .seq 1⟩)
  | .ttrb r q b => some (.negate, ⟨.single, r, .reg q, .nonzero 2 b⟩)
  | .ttrd r q => some (.negate, ⟨.double, r, .reg q, .seq 1⟩)
  | .ttrq r q => some (.negate, ⟨.quad, r, .reg q, .seq 1⟩)
  | _ => none

/-- The rows whose result goes to a word of memory (R252-R381). -/
def memoryRow : Instr → Option (Alu × MemoryRow)
  | .zbmm n m => some (.zeroBit, ⟨.long m, .const (bitmask n), .seq 2⟩)
  | .zmmb n m b => some (.zeroBit, ⟨.long m, .const (bitmask n), .nonzero 3 b⟩)
  | .zbsm n d => some (.zeroBit, ⟨.displaced d, .const (bitmask n), .seq 1⟩)
  | .zbsb n d b => some (.zeroBit, ⟨.displaced d, .const (bitmask n), .nonzero 2 b⟩)
  | .zbxm n x => some (.zeroBit, ⟨.indexed x, .const (bitmask n), .seq 1⟩)
  | .zbxb n x b => some (.zeroBit, ⟨.indexed x, .const (bitmask n), .nonzero 2 b⟩)
  | .etmm r m => some (.extract, ⟨.long m, .reg r, .seq 2⟩)
  | .etmb r m b => some (.extract, ⟨.long m, .reg r, .nonzero 3 b⟩)
  | .etsm r d => some (.extract, ⟨.displaced d, .reg r, .seq 1⟩)
  | .etsb r d b => some (.extract, ⟨.displaced d, .reg r, .nonzero 2 b⟩)
  | .etxm r x => some (.extract, ⟨.indexed x, .reg r, .seq 1⟩)
  | .etxb r x b => some (.extract, ⟨.indexed x, .reg r, .nonzero 2 b⟩)
  | .obmm n m => some (.setBit, ⟨.long m, .const (bitmask n), .seq 2⟩)
  | .obsm n d => some (.setBit, ⟨.displaced d, .const (bitmask n), .seq 1⟩)
  | .obxm n x => some (.setBit, ⟨.indexed x, .const (bitmask n), .seq 1⟩)
  | .ormm r m => some (.inclusiveOr, ⟨.long m, .reg r, .seq 2⟩)
  | .orsm r d => some (.inclusiveOr, ⟨.displaced d, .reg r, .seq 1⟩)
  | .orxm r x => some (.inclusiveOr, ⟨.indexed x, .reg r, .seq 1⟩)
  | .abmm n m => some (.add, ⟨.long m, .const (bitmask n), .seq 2⟩)
  | .abmb n m b => some (.add, ⟨.long m, .const (bitmask n), .nonzero 3 b⟩)
  | .absm n d => some (.add, ⟨.displaced d, .const (bitmask n), .seq 1⟩)
  | .absb n d b => some (.add, ⟨.displaced d, .const (bitmask n), .nonzero 2 b⟩)
  | .abxm n x => some (.add, ⟨.indexed x, .const (bitmask n), .seq 1⟩)
  | .abxb n x b => some (.add, ⟨.indexed x, .const (bitmask n), .nonzero 2 b⟩)
  | .admm r m => some (.add, ⟨.long m, .reg r, .seq 2⟩)
  | .admb r m b => some (.add, ⟨.long m, .reg r, .nonzero 3 b⟩)
  | .adsm r d => some (.add, ⟨.displaced d, .reg r, .seq 1⟩)
  | .adsb r d b => some (.add, ⟨.displaced d, .reg r, .nonzero 2 b⟩)
  | .adxm r x => some (.add, ⟨.indexed x, .reg r, .seq 1⟩)
  | .adxb r x b => some (.add, ⟨.indexed x, .reg r, .nonzero 2 b⟩)
  | _ => none

/-- The rows that only set codes: compare, test bit, test register (R296-R317). -/
def inspectRow : Instr → Option (Alu × InspectRow)
  | .crr r q => some (.subtract, ⟨.single, .reg r, .reg q, .seq 1⟩)
  | .crrd r q => some (.subtract, ⟨.double, .reg r, .reg q, .seq 1⟩)
  | .crm r m => some (.subtract, ⟨.single, .reg r, .mem (.long m), .seq 2⟩)
  | .crmb r m b1 b2 => some (.subtract, ⟨.single, .reg r, .mem (.long m), .lessEqual 4 b1 b2⟩)
  | .crmd r m => some (.subtract, ⟨.double, .reg r, .mem (.long m), .seq 2⟩)
  | .cri r v => some (.subtract, ⟨.single, .reg r, .const v, .seq 2⟩)
  | .crs r d => some (.subtract, ⟨.single, .reg r, .mem (.displaced d), .seq 1⟩)
  | .crsb r d b1 b2 => some (.subtract, ⟨.single, .reg r, .mem (.displaced d), .lessEqual 3 b1 b2⟩)
  | .crx r x => some (.subtract, ⟨.single, .reg r, .mem (.indexed x), .seq 1⟩)
  | .crxb r x b1 b2 => some (.subtract, ⟨.single, .reg r, .mem (.indexed x), .lessEqual 3 b1 b2⟩)
  | .tbr r n => some (.testBit, ⟨.single, .reg r, .const (bitmask n), .seq 1⟩)
  | .tbrb r n b => some (.testBit, ⟨.single, .reg r, .const (bitmask n), .nonzero 2 b⟩)
  | .tbmm n m => some (.testBit, ⟨.single, .mem (.long m), .const (bitmask n), .seq 2⟩)
  | .tbmb n m b => some (.testBit, ⟨.single, .mem (.long m), .const (bitmask n), .nonzero 3 b⟩)
  | .tbsm n d => some (.testBit, ⟨.single, .mem (.displaced d), .const (bitmask n), .seq 1⟩)
  | .tbsb n d b => some (.testBit, ⟨.single, .mem (.displaced d), .const (bitmask n), .nonzero 2 b⟩)
  | .tbxm n x => some (.testBit, ⟨.single, .mem (.indexed x), .const (bitmask n), .seq 1⟩)
  | .tbxb n x b => some (.testBit, ⟨.single, .mem (.indexed x), .const (bitmask n), .nonzero 2 b⟩)
  | .tek r q b => some (.testOnes, ⟨.single, .reg r, .reg q, .nonzero 2 b⟩)
  | .trmb r m b => some (.testOnes, ⟨.single, .reg r, .mem (.long m), .nonzero 3 b⟩)
  | .trsb r d b => some (.testOnes, ⟨.single, .reg r, .mem (.displaced d), .nonzero 2 b⟩)
  | .trxb r x b => some (.testOnes, ⟨.single, .reg r, .mem (.indexed x), .nonzero 2 b⟩)
  | _ => none

/-- The rows that store a register or a pair at an effective address (R213-R218). -/
def storeRow : Instr → Option StoreRow
  | .stm r m => some ⟨.single, r, .long m, 2⟩
  | .stmd r m => some ⟨.double, r, .long m, 2⟩
  | .sts r d => some ⟨.single, r, .displaced d, 1⟩
  | .stx r x => some ⟨.single, r, .indexed x, 1⟩
  | .stxd r x => some ⟨.double, r, .indexed x, 1⟩
  | _ => none

/-- The Load File rows (R209-R211). -/
def loadFileRow : Instr → Option FileRow
  | .lfm r m => some ⟨r, .long m, 2⟩
  | .lfs r d => some ⟨r, .displaced d, 1⟩
  | .lfx r x => some ⟨r, .indexed x, 1⟩
  | _ => none

/-- The Store File rows (R219-R221). -/
def storeFileRow : Instr → Option FileRow
  | .sfm r m => some ⟨r, .long m, 2⟩
  | .sfs r d => some ⟨r, .displaced d, 1⟩
  | .sfx r x => some ⟨r, .indexed x, 1⟩
  | _ => none

/-- The shift rows (R235-R246). -/
def shiftRow : Instr → Option ShiftRow
  | .ras r c => some ⟨.arithmeticRight, .single, r, c⟩
  | .rad r c => some ⟨.arithmeticRight, .double, r, c⟩
  | .raq r c => some ⟨.arithmeticRight, .quad, r, c⟩
  | .las r c => some ⟨.arithmeticLeft, .single, r, c⟩
  | .lad r c => some ⟨.arithmeticLeft, .double, r, c⟩
  | .laq r c => some ⟨.arithmeticLeft, .quad, r, c⟩
  | .rls r c => some ⟨.logicalRight, .single, r, c⟩
  | .rld r c => some ⟨.logicalRight, .double, r, c⟩
  | .rlq r c => some ⟨.logicalRight, .quad, r, c⟩
  | .lls r c => some ⟨.logicalLeft, .single, r, c⟩
  | .lld r c => some ⟨.logicalLeft, .double, r, c⟩
  | .llq r c => some ⟨.logicalLeft, .quad, r, c⟩
  | _ => none

/-- The conditional hops (R319-R332). -/
def hopRow : Instr → Option HopRow
  | .hzr n => some ⟨.z, true, n⟩
  | .hzs n => some ⟨.z, false, n⟩
  | .hnr n => some ⟨.n, true, n⟩
  | .hns n => some ⟨.n, false, n⟩
  | .hcr n => some ⟨.c, true, n⟩
  | .hcs n => some ⟨.c, false, n⟩
  | .hor n => some ⟨.o, true, n⟩
  | .hos n => some ⟨.o, false, n⟩
  | .hls n => some ⟨.less, false, n⟩
  | .hle n => some ⟨.lessEqual, false, n⟩
  | .hge n => some ⟨.less, true, n⟩
  | .hgt n => some ⟨.lessEqual, true, n⟩
  | .hnh n => some ⟨.higher, true, n⟩
  | .hhi n => some ⟨.higher, false, n⟩
  | _ => none

/-- The short-indexed branches (R333-R346). -/
def indexedBranchRow : Instr → Option IndexedBranchRow
  | .bxr x => some ⟨.z, true, x⟩
  | .bxs x => some ⟨.z, false, x⟩
  | .bxnr x => some ⟨.n, true, x⟩
  | .bxns x => some ⟨.n, false, x⟩
  | .bxcr x => some ⟨.c, true, x⟩
  | .bxcs x => some ⟨.c, false, x⟩
  | .bxor x => some ⟨.o, true, x⟩
  | .bxos x => some ⟨.o, false, x⟩
  | .bxls x => some ⟨.less, false, x⟩
  | .bxle x => some ⟨.lessEqual, false, x⟩
  | .bxge x => some ⟨.less, true, x⟩
  | .bxgt x => some ⟨.lessEqual, true, x⟩
  | .bxnh x => some ⟨.higher, true, x⟩
  | .bxhi x => some ⟨.higher, false, x⟩
  | _ => none

/-- The conditional branch-and-link rows (R351-R364). -/
def linkBranchRow : Instr → Option LinkBranchRow
  | .blzr r b => some ⟨.z, true, r, b⟩
  | .blzs r b => some ⟨.z, false, r, b⟩
  | .blnr r b => some ⟨.n, true, r, b⟩
  | .blns r b => some ⟨.n, false, r, b⟩
  | .blcr r b => some ⟨.c, true, r, b⟩
  | .blcs r b => some ⟨.c, false, r, b⟩
  | .blor r b => some ⟨.o, true, r, b⟩
  | .blos r b => some ⟨.o, false, r, b⟩
  | .blls r b => some ⟨.less, false, r, b⟩
  | .blle r b => some ⟨.lessEqual, false, r, b⟩
  | .blge r b => some ⟨.less, true, r, b⟩
  | .blgt r b => some ⟨.lessEqual, true, r, b⟩
  | .blnh r b => some ⟨.higher, true, r, b⟩
  | .blhi r b => some ⟨.higher, false, r, b⟩
  | _ => none

/-- The integer multiplies the spec gives a meaning (R397, R399, R401, R402). -/
def multiplyRow : Instr → Option PairRow
  | .mpr r q => some ⟨r, .reg q, 1⟩
  | .mpm r m => some ⟨r, .mem (.long m), 2⟩
  | .mps r d => some ⟨r, .mem (.displaced d), 1⟩
  | .mpx r x => some ⟨r, .mem (.indexed x), 1⟩
  | _ => none

/-- The integer divides the spec gives a meaning (R403, R405, R407, R408). -/
def divideRow : Instr → Option PairRow
  | .dvr r q => some ⟨r, .reg q, 1⟩
  | .dvm r m => some ⟨r, .mem (.long m), 2⟩
  | .dvs r d => some ⟨r, .mem (.displaced d), 1⟩
  | .dvx r x => some ⟨r, .mem (.indexed x), 1⟩
  | _ => none

/-- The floating-point arithmetic rows (R415-R438). -/
def floatRow : Instr → Option FloatRow
  | .far r q => some ⟨.add, .double, r, .reg q, 1, false⟩
  | .fard r q => some ⟨.add, .triple, r, .reg q, 1, false⟩
  | .farq r q => some ⟨.add, .quad, r, .reg q, 1, false⟩
  | .fam r m => some ⟨.add, .double, r, .mem (.long m), 2, m.ind⟩
  | .famd r m => some ⟨.add, .triple, r, .mem (.long m), 2, m.ind⟩
  | .famq r m => some ⟨.add, .quad, r, .mem (.long m), 2, m.ind⟩
  | .fsr r q => some ⟨.subtract, .double, r, .reg q, 1, false⟩
  | .fsrd r q => some ⟨.subtract, .triple, r, .reg q, 1, false⟩
  | .fsrq r q => some ⟨.subtract, .quad, r, .reg q, 1, false⟩
  | .fsm r m => some ⟨.subtract, .double, r, .mem (.long m), 2, m.ind⟩
  | .fsmd r m => some ⟨.subtract, .triple, r, .mem (.long m), 2, m.ind⟩
  | .fsmq r m => some ⟨.subtract, .quad, r, .mem (.long m), 2, m.ind⟩
  | .fmr r q => some ⟨.multiply, .double, r, .reg q, 1, false⟩
  | .fmrd r q => some ⟨.multiply, .triple, r, .reg q, 1, false⟩
  | .fmrq r q => some ⟨.multiply, .quad, r, .reg q, 1, false⟩
  | .fmm r m => some ⟨.multiply, .double, r, .mem (.long m), 2, m.ind⟩
  | .fmmd r m => some ⟨.multiply, .triple, r, .mem (.long m), 2, m.ind⟩
  | .fmmq r m => some ⟨.multiply, .quad, r, .mem (.long m), 2, m.ind⟩
  | .fdr r q => some ⟨.divide, .double, r, .reg q, 1, false⟩
  | .fdrd r q => some ⟨.divide, .triple, r, .reg q, 1, false⟩
  | .fdrq r q => some ⟨.divide, .quad, r, .reg q, 1, false⟩
  | .fdm r m => some ⟨.divide, .double, r, .mem (.long m), 2, m.ind⟩
  | .fdmd r m => some ⟨.divide, .triple, r, .mem (.long m), 2, m.ind⟩
  | .fdmq r m => some ⟨.divide, .quad, r, .mem (.long m), 2, m.ind⟩
  | _ => none

/-- The class X rows: the spec says refuse (spec/00_scope.md R7). -/
def refusedRow : Instr → Option Refusal
  | .plm _ _ _ => some .stackDescriptor
  | .psm _ _ _ => some .stackDescriptor
  | .lrs _ _ => some .rotateAmount
  | .cbmb _ _ _ _ => some .compareBitOperands
  | .cbsb _ _ _ _ => some .compareBitOperands
  | .cbxb _ _ _ _ => some .compareBitOperands
  | .blt _ => some .branchTable
  | .mprd _ _ => some .wideMultiplyDivide
  | .mpmd _ _ => some .wideMultiplyDivide
  | .dvrd _ _ => some .wideMultiplyDivide
  | .dvmd _ _ => some .wideMultiplyDivide
  | .exr _ _ => some .executedWord
  | .tdr => some .overflowTransfer
  | .evmo => some .virtualMode
  | .mrrbRm _ _ => some .contextFile
  | .mrrbMr _ _ => some .contextFile
  | .scrb => some .registerBlock
  | .mabi => some .mapImage
  | .amem _ => some .mapImage
  | .dmeh _ => some .mapImage
  | .limp _ => some .mapImage
  | .lomp _ => some .mapImage
  | .zimp _ => some .mapImage
  | .zomp _ => some .mapImage
  | .siom _ => some .mapImage
  | .soom _ => some .mapImage
  | .szom => some .mapImage
  | .ldvm _ _ => some .mapImage
  | .stvm _ _ => some .mapImage
  | .spr => some .protectRegister
  | .sgp _ => some .protectRegister
  | .slp _ => some .protectRegister
  | .sup _ => some .protectRegister
  | .dmpi _ _ => some .directMemoryProcessor
  | _ => none

/-- The register operands of the rows that stand in no table above, with their widths, in the order in which they are checked
(R21 (c), R22; log 22). -/
def registerOperands : Instr → List (Width × Reg)
  | .sti r _ | .lbx r _ | .sbx r _ | .irm r _ | .bli r | .lcie r | .lcia r | .lcip r | .lccc r | .lcps r | .lcpr r | .sccc r
  | .isi _ r _ | .idi _ r _ | .oci _ r _ | .odi _ r _ => [(.single, r)]
  | .mlr r q | .mbr r q | .mur r q | .mbl r q | .ibr r q | .irr r q => [(.single, r), (.single, q)]
  | .ess r q => [(.double, r), (.single, q)]
  | .esd r q => [(.quad, r), (.double, q)]
  | .cdie r q | .cfdi r q => [(.double, r), (.double, q)]
  | .coff r q => [(.double, r), (.quad, q)]
  | .ldam r p | .stan r p => [(.single, r), (.double, p)]
  | .car r | .cir r => [(.double, r)]
  | _ => []

/-- The first of those operands whose number R21 or R22 forbids. -/
def forbiddenOperand (i : Instr) : Option (Width × Reg) := (registerOperands i).find? fun p => !p.1.admits p.2

/-- The 36 privileged rows (R602). -/
def isPrivileged : Instr → Bool
  | .hlt | .evmo | .mrrbRm _ _ | .mrrbMr _ _ | .scrb | .mabi | .amem _ | .dmeh _ | .limp _ | .lomp _ | .zimp _ | .zomp _
  | .siom _ | .soom _ | .szom | .ldvm _ _ | .ldam _ _ | .stvm _ _ | .stan _ _ | .spr | .sgp _ | .slp _ | .sup _ | .sie _
  | .sia _ | .sir _ | .rie _ | .ria _ | .rir _ | .car _ | .cir _ | .isi _ _ _ | .idi _ _ _ | .oci _ _ _ | .odi _ _ _
  | .dmpi _ _ => true
  | _ => false

/-! ### Codes as arithmetic on integers -/

/-- The integer lies in -2^(w-1) .. 2^(w-1)-1 (R10). -/
def fitsSigned (w : Nat) (x : Int) : Bool := decide (-(2 ^ (w - 1) : Int) ≤ x) && decide (x < (2 ^ (w - 1) : Int))

/-- The codes of a + b: sign and zero of the result, O where the signed sum does not fit, C where the unsigned one does not
(R29). -/
def sumCodes {w : Nat} (a b : BitVec w) : Codes :=
  ⟨(a + b).msb, a + b == 0#w, !fitsSigned w (a.toInt + b.toInt), decide (2 ^ w ≤ a.toNat + b.toNat)⟩

/-- The codes of a - b: O where the signed difference does not fit, C where there is no borrow (R29). -/
def differenceCodes {w : Nat} (a b : BitVec w) : Codes :=
  ⟨(a - b).msb, a - b == 0#w, !fitsSigned w (a.toInt - b.toInt), decide (b.toNat ≤ a.toNat)⟩

/-- The status word with the four codes of an integer operation, and OH set where O is (R31). -/
def Psw.withCodes (p : Psw) (k : Codes) : Psw := { p with n := k.n, z := k.z, o := k.o, c := k.c, oh := p.oh || k.o }

/-- The status word with N and Z of a result, the other codes as they were (R28). -/
def Psw.withSign {w : Nat} (p : Psw) (r : BitVec w) : Psw := { p with n := r.msb, z := r == 0#w }

/-- The status word with the four codes replaced, OH as it was (R28). -/
def Psw.withClass (p : Psw) (k : Codes) : Psw := { p with n := k.n, z := k.z, o := k.o, c := k.c }

/-! ### How an instruction ends -/

/-- Where `pc` stands afterwards: after the instruction; at B; at B exactly where the result is not zero; on the <= condition
at B1 or B2 (R110, D19, D48). -/
def EndsAs {w : Nat} (nx : Next) (s t : State) (result : BitVec w) : Prop :=
  match nx with
  | .seq n => t.pc = s.pc + BitVec.ofNat 16 n
  | .always b => t.pc = b
  | .nonzero n b => t.pc = if result = 0#w then s.pc + BitVec.ofNat 16 n else b
  | .lessEqual n b1 b2 =>
    t.pc = if t.psw.n ≠ t.psw.o then b1 else if t.psw.z = true then b2 else s.pc + BitVec.ofNat 16 n

/-- The condition as the card's table has it (R43). -/
def holdsCondition (p : Psw) : Condition → Prop
  | .n => p.n = true
  | .z => p.z = true
  | .o => p.o = true
  | .c => p.c = true
  | .less => p.n ≠ p.o
  | .lessEqual => p.z = true ∨ p.n ≠ p.o
  | .higher => p.c = true ∧ p.z = false

/-- A row branches: its condition holds, or, where the inverting bit is set, does not (R43). -/
def Branches (p : Psw) (k : Condition) (inverted : Bool) : Prop := if inverted then ¬ holdsCondition p k else holdsCondition p k

/-! ### What a step leaves alone -/

/-- The register multiple holds the value, and every other register holds what it held. -/
def OnlyRegisters (g g' : Regs) (k : Width) (r : Reg) (v : BitVec k.bits) : Prop :=
  g'.getMulti k r = v ∧ ∀ q : Reg, k.words ≤ (q - r).toNat → g'.get q = g.get q

/-- IM, PV, GRB and OM are what they were. -/
def SameMode (p q : Psw) : Prop := q.im = p.im ∧ q.pv = p.pv ∧ q.grb = p.grb ∧ q.om = p.om

/-- N and Z are those of the result, O and C are free values, OH is set or as it was (R28, R31). -/
def SignDrawn {w : Nat} (s t : State) (r : BitVec w) : Prop :=
  SameMode s.psw t.psw ∧ t.psw.n = r.msb ∧ t.psw.z = (r == 0#w) ∧ (s.psw.oh = true → t.psw.oh = true)

/-- N, Z, O, C and OH are what they were too: the whole status word is. -/
def SameStatus (s t : State) : Prop := t.psw = s.psw ∧ t.draws = s.draws

/-- The latches, the run state and everything about the environment are what they were. -/
def SameControl (s t : State) : Prop :=
  t.ie = s.ie ∧ t.ia = s.ia ∧ t.ir = s.ir ∧ t.run = s.run ∧ t.launch = s.launch ∧ t.pending = s.pending
    ∧ t.envRequests = s.envRequests ∧ t.outputs = s.outputs

/-- Every byte of memory reads as it did. -/
def SameBytes (s t : State) : Prop := ∀ a : Nat, t.mem.read a = s.mem.read a

/-- Every byte of memory outside the `n` words from `a` on reads as it did (addresses modulo 2^16, R75). -/
def SameBytesOutside (s t : State) (a : Word) (n : Nat) : Prop :=
  ∀ b : Nat, (∀ k < n, b ≠ 2 * (a + BitVec.ofNat 16 k).toNat ∧ b ≠ 2 * (a + BitVec.ofNat 16 k).toNat + 1) →
    t.mem.read b = s.mem.read b

/-- The words from `a` on hold the given values. -/
def WordsAt (t : State) (a : Word) (vs : List Word) : Prop :=
  ∀ (k : Nat) (h : k < vs.length), t.mem.readWord (a + BitVec.ofNat 16 k) = some vs[k]

/-- Every register and every byte of memory holds what it held, and so do the latches and the rest. -/
def SameData (s t : State) : Prop := t.regs = s.regs ∧ SameBytes s t ∧ SameControl s t

/-- Nothing but `pc` has changed. -/
def OnlyPc (s t : State) : Prop := SameData s t ∧ SameStatus s t

/-- A register multiple holds a value, and nothing has changed but it, the status word and `pc`. -/
def WritesRegister (s t : State) (k : Width) (r : Reg) (v : BitVec k.bits) : Prop :=
  OnlyRegisters s.regs t.regs k r v ∧ SameBytes s t ∧ SameControl s t

/-- A word of memory holds a value, and nothing has changed but it, the status word and `pc`. -/
def WritesWord (s t : State) (a v : Word) : Prop :=
  t.mem.readWord a = some v ∧ SameBytesOutside s t a 1 ∧ t.regs = s.regs ∧ SameControl s t

/-- The word at `a` can be read, and this is it. -/
def HoldsWord (s : State) (a v : Word) : Prop := s.launched a = true ∧ s.mem.readWord a = some v

/-- Where the part `x` of an instruction stops, `y` stops, and in the same way. -/
def StopsAs {α : Type} (x : Res α) (y : Res State) : Prop :=
  (∀ e, x = .refused e → y = .refused e) ∧ ∀ e, x = .fault e → y = .fault e

/-! ### Runs and invariants -/

/-- What every step keeps: the memory in canonical form (R60). -/
def State.Inv (s : State) : Prop := s.mem.wf

/-- `t` is reached from `s` in `n` steps, none of them a stop. -/
def reachesIn : Nat → State → State → Prop
  | 0, s, t => s = t
  | n + 1, s, t => ∃ u, step s = .next u ∧ reachesIn n u t

/-- The state with another privilege bit (R32). -/
def State.withPv (s : State) (b : Bool) : State := { s with psw := { s.psw with pv := b } }

end Sys2Proof.Machine
end

