-- ==== Sys2Proof/Certificates/Slice0/Obligations.lean ====
section
/-! DEFINITION. The statements for the provers, from the numbered rules of spec/. A docstring names the rules its statement rests
on; OBLIGATIONS.json says the same in words. -/

open Sys2Proof Sys2Proof.Machine

/-- Decoding the encoding of a well-formed instruction gives it back (30_encoding.md R100-R120). -/
def Obligations.EncodedInstructionDecodes : Prop :=
  ∀ (i : Instr) (rest : List Word), i.WellFormed = true →
    decodeWords (encode i ++ rest) = .ok (i, rest) ∧ decode (bytesOfWords (encode i ++ rest)) = .ok (i, rest)

/-- What the decoder reads is well formed, and its encoding keeps the op-code byte and every following word
(30_encoding.md R100, R101, R110, R116, R124). -/
def Obligations.DecodedInstructionIsWellFormed : Prop :=
  ∀ (ws : List Word) (i : Instr) (rest : List Word), decodeWords ws = .ok (i, rest) →
    i.WellFormed = true ∧ ∃ w e more, ws = w :: (more ++ rest) ∧ encode i = e :: more ∧ opByte e = opByte w

/-- A few words written out from the encodings of the spec decode to their instructions (30_encoding.md R101-R117). -/
def Obligations.SampleWordsDecode : Prop :=
  decodeWords [0x6D23#16] = .ok (.trr 2#4 3#4, []) ∧ decodeWords [0x6223#16] = .ok (.zbr 2#4 3#4, []) ∧
  decodeWords [0x2A93#16] = .ok (.raq 8#4 3#4, []) ∧
  decodeWords [0xCD7A#16, 0x0200#16] = .ok (.ldmd 6#4 ⟨true, 2#3, 0x0200#16⟩, []) ∧
  decodeWords [0xED50#16, 0x1234#16] = .ok (.ldt 5#4 0x1234#16, []) ∧ decodeWords [0xF527#16] = .ok (.lds 2#4 7#4, []) ∧
  decodeWords [0xFD23#16] = .ok (.ldx 2#4 3#4, []) ∧
  decodeWords [0xC721#16, 0x0200#16, 0x0300#16, 0x0400#16]
    = .ok (.crmb 2#4 ⟨false, 1#3, 0x0200#16⟩ 0x0300#16 0x0400#16, []) ∧
  decodeWords [0xA97D#16] = .ok (.hzs 0x7D#7, []) ∧ decodeWords [0x8F93#16] = .ok (.bxr 3#4, []) ∧
  decodeWords [0xA7B4#16, 0x0300#16] = .ok (.blcr 4#4 0x0300#16, []) ∧ decodeWords [0x0E25#16] = .ok (.lcie 2#4, []) ∧
  decodeWords [0x2643#16] = .ok (.sie 3#4, []) ∧ decodeWords [0x4A35#16] = .ok (.isi 2#2 3#4 5#4, [])

/-- A word with one of the 38 unassigned op-code bytes is no instruction, and a step that fetches it is the fault of
R603 (30_encoding.md R122; 60_exceptions.md R603). -/
def Obligations.UnassignedWordIsNoInstruction : Prop :=
  ∀ w : Word, (opByte w).extractLsb' 4 4 = 1#4 ∨ (opByte w).extractLsb' 4 4 = 5#4
      ∨ opByte w ∈ [0x88#8, 0x89#8, 0xB2#8, 0xC8#8, 0xCA#8, 0xCC#8] →
    decodeHead w = none ∧
    ∀ s : State, s.run = .running → s.pending = none → recognise (takeRequests s) = none → HoldsWord s s.pc w →
      step s = .fault .unimplementedInstruction

/-- Where the words at pc decode to an instruction, the step is that instruction executed (60_exceptions.md R606;
20_memory.md R78; 30_encoding.md R124). -/
def Obligations.StepRunsDecodedInstruction : Prop :=
  ∀ (s : State) (ws : List Word) (i : Instr), s.run = .running → s.pending = none → recognise (takeRequests s) = none →
    (∀ (k : Nat) (h : k < ws.length), HoldsWord s (s.pc + BitVec.ofNat 16 k) ws[k]) → decodeWords ws = .ok (i, []) →
    i.WellFormed = true → step s = exec i (takeRequests s)

/-- Every step keeps the memory in its canonical form (20_memory.md R60). -/
def Obligations.StepKeepsMemoryForm : Prop :=
  ∀ s t : State, s.Inv → step s = .next t → t.Inv

/-- The state at reset: running, memory in canonical form; the other values are the model's choice (logs 1 to 6)
(10_state.md R42). -/
def Obligations.ResetState : Prop :=
  State.reset.run = .running ∧ State.reset.Inv ∧ (∀ r : Reg, State.reset.regs.get r = 0#16) ∧ State.reset.pc = 0#16 ∧
  State.reset.psw.toWord = 0x1000#16 ∧ State.reset.ie = 0#16 ∧ State.reset.ia = 0#16 ∧ State.reset.ir = 0#16 ∧
  (∀ a : Nat, State.reset.mem.read a = none) ∧ (∀ a : Word, State.reset.launched a = true)

/-- IM, OM, GRB and the launch addresses are constant over every run (10_state.md R33, R34; 70_reset_and_hazards.md
R654). -/
def Obligations.MapsAndBlockNeverChange : Prop :=
  ∀ (n : Nat) (s t : State), reachesIn n s t →
    t.psw.im = s.psw.im ∧ t.psw.om = s.psw.om ∧ t.psw.grb = s.psw.grb ∧ t.launch = s.launch

/-- No instruction but CAR and CIR changes PV or clears OH (10_state.md R31, R32). -/
def Obligations.OnlyReturnsChangePrivilegeOrClearHistory : Prop :=
  ∀ (i : Instr) (s t : State), (∀ r, i ≠ .car r) → (∀ r, i ≠ .cir r) → exec i s = .next t →
    t.psw.pv = s.psw.pv ∧ (s.psw.oh = true → t.psw.oh = true)

/-- An instruction executed with PV = 0 changes no latch, no I/O output, and does not halt the machine or raise its
privilege (10_state.md R35; 60_exceptions.md R602, R605). -/
def Obligations.UnprivilegedProgramsKeepLatches : Prop :=
  ∀ (i : Instr) (s t : State), s.psw.pv = false → exec i s = .next t →
    t.psw.pv = false ∧ t.ie = s.ie ∧ t.ia = s.ia ∧ t.ir = s.ir ∧ t.run = s.run ∧
      (t.outputs = s.outputs ∨ t.outputs = .multiprocessorRequest :: s.outputs)

/-- With PV = 0 every privileged row is the fault privilegeViolation, before any refusal of its own (60_exceptions.md
R602). -/
def Obligations.PrivilegedRowsFaultUnprivileged : Prop :=
  ∀ (i : Instr) (s : State), isPrivileged i = true → s.psw.pv = false → exec i s = .fault .privilegeViolation

/-- A row that is not privileged executes alike with PV = 0 and PV = 1 (10_state.md R32). -/
def Obligations.UnprivilegedRowsIgnorePrivilege : Prop :=
  ∀ (i : Instr) (s : State) (b : Bool), isPrivileged i = false → (∀ r, i ≠ .lcps r) →
    exec i (s.withPv b) = match exec i s with
      | .next t => .next (t.withPv b)
      | .fault f => .fault f
      | .refused r => .refused r

/-- The step takes the lowest level requested, enabled and not held off; where none is, it executes the instruction at
pc (first step: log 29) (60_exceptions.md R606, R607, R609). -/
def Obligations.InterruptTakesLowestRecognisableLevel : Prop :=
  (∀ (s : State) (l : BitVec 4), s.run = .running → s.pending = none →
    latch (takeRequests s).ir l = true → latch (takeRequests s).ie l = true →
    (∀ k, k ≤ l → latch (takeRequests s).ia k = false) →
    (∀ k, k < l → latch (takeRequests s).ir k = false ∨ latch (takeRequests s).ie k = false) →
    step s = raiseEvent (.interrupt l) (takeRequests s)) ∧
  (∀ s : State, s.run = .running → s.pending = none →
    (∀ l, latch (takeRequests s).ir l = true → latch (takeRequests s).ie l = true →
      ∃ k, k ≤ l ∧ latch (takeRequests s).ia k = true) →
    step s = fetchAndRun exec (takeRequests s)) ∧
  (∀ s : State, s.run = .running → s.pending = none → (takeRequests s).ie &&& (takeRequests s).ir = 0#16 →
    step s = fetchAndRun exec (takeRequests s))

/-- Taking an interrupt adopts the entry's answer if it meets the conditions (a) to (c), else refuses (the refusals:
logs 16, 17) (60_exceptions.md R607; 10_state.md R33). -/
def Obligations.InterruptEntryKeepsItsConditions : Prop :=
  (∀ (l : BitVec 4) (s : State), (∃ r, raiseEvent (.interrupt l) s = .refused r) ∨
    ∃ t, raiseEvent (.interrupt l) s = .next t ∧ latch t.ia l = true ∧
      (∀ k, k ≠ l → latch t.ie k = latch s.ie k ∧ latch t.ia k = latch s.ia k ∧ latch t.ir k = latch s.ir k) ∧
      Config.savedPsd t = (s.pc, s.psw.toWord) ∧
      t.psw.im = s.psw.im ∧ t.psw.om = s.psw.om ∧ t.psw.grb = s.psw.grb ∧ t.Inv) ∧
  ∀ (l : BitVec 4) (s : State), raiseEvent (.interrupt l) s =
    match Config.interruptEntry l s with
    | none => .refused .noInterruptEntry
    | some a =>
      let t := { a with
        launch := s.launch, draws := s.draws, pending := none, envRequests := s.envRequests, outputs := s.outputs }
      if ¬ a.mem.wf then .refused .environmentAnswer
      else if ¬ (a.psw.im = s.psw.im ∧ a.psw.om = s.psw.om ∧ a.psw.grb = s.psw.grb) then .refused .mapOrBlockChange
      else if latch a.ia l = true ∧
          (∀ k, k ≠ l → latch a.ie k = latch s.ie k ∧ latch a.ia k = latch s.ia k ∧ latch a.ir k = latch s.ir k) ∧
          Config.savedPsd t = (s.pc, s.psw.toWord) then .next t
      else .refused .environmentAnswer

/-- Between two steps the environment sets request latches, resets none, and touches nothing else of the machine
(60_exceptions.md R605). -/
def Obligations.EnvironmentOnlySetsRequests : Prop :=
  ∀ s : State, (∀ l, latch (takeRequests s).ir l = (latch s.ir l || latch (s.envRequests.headD 0#16) l)) ∧
    (takeRequests s).ie = s.ie ∧ (takeRequests s).ia = s.ia ∧ (takeRequests s).regs = s.regs ∧
    (takeRequests s).pc = s.pc ∧ (takeRequests s).psw = s.psw ∧ (takeRequests s).run = s.run ∧
    (takeRequests s).mem = s.mem ∧ (takeRequests s).launch = s.launch ∧ (takeRequests s).pending = s.pending ∧
    (takeRequests s).outputs = s.outputs ∧ (takeRequests s).draws = s.draws ∧
    (takeRequests s).envRequests = s.envRequests.tail

/-- CAR and CIR leave the lowest active level and load pc and PS from the register pair (class T, executed by log 8)
(60_exceptions.md R608; 49_interrupt_io.md R483, R484; 10_state.md R26, R33). -/
def Obligations.ReturnFromInterruptLeavesLevel : Prop :=
  ∀ (r : Reg) (s : State), s.psw.pv = true → Width.admits .double r = true →
    (∀ l : BitVec 4, latch s.ia l = true → (∀ k, k < l → latch s.ia k = false) →
      (s.regs.get (r + 1) &&& 0xEFE0#16 = s.psw.toWord &&& 0xEFE0#16 →
        (∃ t, exec (.car r) s = .next t ∧ t.pc = s.regs.get r ∧ t.psw.toWord = s.regs.get (r + 1) ∧
          (∀ k, latch t.ia k = (latch s.ia k && k != l)) ∧ t.ie = s.ie ∧ t.ir = s.ir ∧ t.regs = s.regs ∧ SameBytes s t ∧
          t.run = s.run ∧ t.launch = s.launch ∧ t.pending = s.pending ∧ t.envRequests = s.envRequests ∧
          t.outputs = s.outputs) ∧
        (∃ t, exec (.cir r) s = .next t ∧ t.pc = s.regs.get r ∧ t.psw.toWord = s.regs.get (r + 1) ∧
          (∀ k, latch t.ia k = (latch s.ia k && k != l)) ∧ (∀ k, latch t.ir k = (latch s.ir k && k != l)) ∧ t.ie = s.ie ∧
          t.regs = s.regs ∧ SameBytes s t ∧ t.run = s.run ∧ t.launch = s.launch ∧ t.pending = s.pending ∧
          t.envRequests = s.envRequests ∧ t.outputs = s.outputs)) ∧
      (s.regs.get (r + 1) &&& 0xEFE0#16 ≠ s.psw.toWord &&& 0xEFE0#16 →
        exec (.car r) s = .refused .mapOrBlockChange ∧ exec (.cir r) s = .refused .mapOrBlockChange)) ∧
    (s.ia = 0#16 → exec (.car r) s = .refused .noActiveLevel ∧ exec (.cir r) s = .refused .noActiveLevel)

/-- SIE, SIA, SIR set and RIE, RIA, RIR reset one latch of level L (R477; R478; R479; R480; R481; R482). -/
def Obligations.SetAndResetLatches : Prop :=
  ∀ (l : Nibble) (s : State),
    (decodeWords [0x2640#16 ||| l.zeroExtend 16] = .ok (.sie l, []) ∧
      decodeWords [0x2600#16 ||| l.zeroExtend 16] = .ok (.sia l, []) ∧
      decodeWords [0x2680#16 ||| l.zeroExtend 16] = .ok (.sir l, []) ∧
      decodeWords [0x2740#16 ||| l.zeroExtend 16] = .ok (.rie l, []) ∧
      decodeWords [0x2700#16 ||| l.zeroExtend 16] = .ok (.ria l, []) ∧
      decodeWords [0x2780#16 ||| l.zeroExtend 16] = .ok (.rir l, [])) ∧
    (s.psw.pv = false → ∀ i ∈ [Instr.sie l, .sia l, .sir l, .rie l, .ria l, .rir l], exec i s = .fault .privilegeViolation) ∧
    (s.psw.pv = true → ∃ e a q e' a' q' : Word,
      (∀ k, latch e k = (latch s.ie k || k == l) ∧ latch a k = (latch s.ia k || k == l) ∧
        latch q k = (latch s.ir k || k == l) ∧ latch e' k = (latch s.ie k && k != l) ∧
        latch a' k = (latch s.ia k && k != l) ∧ latch q' k = (latch s.ir k && k != l)) ∧
      exec (.sie l) s = .next { s with ie := e, pc := s.pc + 1 } ∧ exec (.sia l) s = .next { s with ia := a, pc := s.pc + 1 } ∧
      exec (.sir l) s = .next { s with ir := q, pc := s.pc + 1 } ∧ exec (.rie l) s = .next { s with ie := e', pc := s.pc + 1 } ∧
      exec (.ria l) s = .next { s with ia := a', pc := s.pc + 1 } ∧ exec (.rir l) s = .next { s with ir := q', pc := s.pc + 1 })

/-- REX moves pc past itself and asks; the next step is the executive's answer (two steps, and what answer is accepted:
log 16) (48_control.md R442; 60_exceptions.md R604). -/
def Obligations.ExecutiveRequestThenItsAnswer : Prop :=
  ∀ (sn : BitVec 8) (s : State), ∃ t, exec (.rex sn) s = .next t ∧ t = { s with pc := s.pc + 1, pending := some sn } ∧
    (s.run = .running → step t = match Config.executive sn t with
      | none => .fault .executiveEnded
      | some a => acceptAnswer t a)

/-- Effective addresses by mode, the order of multi-word operands, and the mask of a bit (20_memory.md R62-R66, R68,
R69, R71, R75; 10_state.md R22). -/
def Obligations.OperandFormsOfTheCard : Prop :=
  (∀ (x : BitVec 3) (a : Word) (s : State), effectiveAddress (.long ⟨false, x, a⟩) s =
    .next (if x = 0#3 then a else a + s.regs.get (0#1 ++ x))) ∧
  (∀ (x : BitVec 3) (a p : Word) (s : State), HoldsWord s a p → effectiveAddress (.long ⟨true, x, a⟩) s =
    .next (if x = 0#3 then p else p + s.regs.get (0#1 ++ x))) ∧
  (∀ (d : Nibble) (s : State), effectiveAddress (.displaced d) s = .next (s.regs.get 1#4 + BitVec.ofNat 16 d.toNat)) ∧
  (∀ (x : Reg) (s : State), effectiveAddress (.indexed x) s =
    if 1 ≤ x.toNat ∧ x.toNat ≤ 7 then .next (s.regs.get x) else .refused .indexRegister) ∧
  (∀ (g : Regs) (r : Reg), g.getMulti .double r = g.get r ++ g.get (r + 1) ∧
    g.getMulti .triple r = g.get r ++ g.get (r + 1) ++ g.get (r + 2) ∧
    g.getMulti .quad r = g.get r ++ g.get (r + 1) ++ g.get (r + 2) ++ g.get (r + 3)) ∧
  (∀ (a v0 v1 v2 v3 : Word) (s : State), HoldsWord s a v0 → HoldsWord s (a + 1) v1 → HoldsWord s (a + 2) v2 →
    HoldsWord s (a + 3) v3 → loadMulti .single a s = .next v0 ∧ loadMulti .double a s = .next (v0 ++ v1) ∧
      loadMulti .triple a s = .next (v0 ++ v1 ++ v2) ∧ loadMulti .quad a s = .next (v0 ++ v1 ++ v2 ++ v3)) ∧
  (∀ n : Nibble, (bitmask n).toNat = 2 ^ (15 - n.toNat) ∧
    ∀ k < 16, (bitmask n).getLsbD k = decide (k = 15 - n.toNat))

/-- A stored word reads back, left byte first, nothing else changed; missing memory is stuck, unwritten memory refuses
(20_memory.md R60, R61, R82, R89). -/
def Obligations.MemoryReadsAsWrittenOrStops : Prop :=
  (∀ (a v : Word) (s t : State), storeWord a v s = .next t →
    loadWord a t = .next v ∧ t.mem.read (2 * a.toNat) = some (v.extractLsb' 8 8) ∧
    t.mem.read (2 * a.toNat + 1) = some (v.extractLsb' 0 8) ∧ SameBytesOutside s t a 1 ∧ t = { s with mem := t.mem } ∧
    (s.Inv → t.Inv)) ∧
  (∀ (a : Word) (s : State),
    (s.launched a = false → loadWord a s = .fault .outsideLaunchMemory ∧
      ∀ v, storeWord a v s = .fault .outsideLaunchMemory) ∧
    (s.launched a = true → s.mem.readWord a = none → loadWord a s = .refused .unwrittenMemory ∧
      ∀ v, ∃ t, storeWord a v s = .next t))

/-- A forbidden register number refuses, and an operand that cannot be read, addressed or stored stops its row (order:
log 22; class T: log 8) (10_state.md R21, R22; 20_memory.md R62-R69, R72, R75, R87, R89; 40_move.md R202, R209-R221,
R224-R230; 46_multiply_divide.md R397-R408, R413, R414; 47_floating.md R439-R441; 48_control.md R446-R452, R470,
R472; 49_interrupt_io.md R483-R488). -/
def Obligations.UnusableOperandsStopTheRow : Prop :=
  ∀ (i : Instr) (s : State),
    (∀ op row, registerRow i = some (op, row) → row.k.admits row.r = false → exec i s = .refused (badRegister row.r)) ∧
    (∀ row, storeRow i = some row → row.k.admits row.r = false → exec i s = .refused (badRegister row.r)) ∧
    (∀ row, shiftRow i = some row → row.k.admits row.r = false → exec i s = .refused (badRegister row.r)) ∧
    (∀ row, floatRow i = some row → row.indirect = false → row.k.admits row.r = false →
      exec i s = .refused (badRegister row.r)) ∧
    (∀ row, loadFileRow i = some row → row.r = 0#4 → exec i s = .refused .registerZero) ∧
    (∀ row, storeFileRow i = some row → row.r = 0#4 → exec i s = .refused .registerZero) ∧
    (∀ row, multiplyRow i = some row ∨ divideRow i = some row →
      (row.r.getLsbD 0 = true → exec i s = .refused .oddPair) ∧ (row.r = 0#4 → exec i s = .refused .registerZero)) ∧
    (∀ op row r, inspectRow i = some (op, row) → row.first = .reg r → row.k.admits r = false →
      exec i s = .refused (badRegister r)) ∧
    (∀ k r, forbiddenOperand i = some (k, r) → (isPrivileged i = true → s.psw.pv = true) →
      exec i s = .refused (badRegister r)) ∧
    (∀ op row, registerRow i = some (op, row) → row.k.admits row.r = true → StopsAs (row.src.read s) (exec i s)) ∧
    (∀ op row, memoryRow i = some (op, row) → StopsAs (row.src.read s) (exec i s) ∧
      ∀ b, row.src.read s = .next b → StopsAs (effectiveAddress row.o s) (exec i s) ∧
        ∀ ea, effectiveAddress row.o s = .next ea → StopsAs (loadWord ea s) (exec i s)) ∧
    (∀ op row, inspectRow i = some (op, row) → StopsAs (row.first.read s) (exec i s) ∧
      ∀ a, row.first.read s = .next a → StopsAs (row.second.read s) (exec i s)) ∧
    (∀ row, floatRow i = some row → row.indirect = false → row.k.admits row.r = true →
      StopsAs (row.src.read s) (exec i s)) ∧
    (∀ row, multiplyRow i = some row ∨ divideRow i = some row → Width.admits .double row.r = true →
      StopsAs (row.src.read s) (exec i s)) ∧
    (∀ row, storeRow i = some row → row.k.admits row.r = true → StopsAs (effectiveAddress row.o s) (exec i s) ∧
      ∀ ea, effectiveAddress row.o s = .next ea → (∃ k < row.k.words, s.launched (ea + BitVec.ofNat 16 k) = false) →
        exec i s = .fault .outsideLaunchMemory) ∧
    (∀ row, loadFileRow i = some row → row.r ≠ 0#4 → StopsAs (effectiveAddress row.o s) (exec i s) ∧
      ∀ ea, effectiveAddress row.o s = .next ea → StopsAs (loadWords ea (16 - row.r.toNat) s) (exec i s)) ∧
    (∀ row, storeFileRow i = some row → row.r ≠ 0#4 → StopsAs (effectiveAddress row.o s) (exec i s) ∧
      ∀ ea, effectiveAddress row.o s = .next ea →
        (∃ k < 16 - row.r.toNat, s.launched (ea + BitVec.ofNat 16 k) = false) → exec i s = .fault .outsideLaunchMemory) ∧
    (∀ r v, i = .sti r v → r ≠ 0#4 → s.launched (s.pc + 1) = false → exec i s = .fault .outsideLaunchMemory) ∧
    (∀ r m, i = .irm r m → r ≠ 0#4 → StopsAs (longAddress m s) (exec i s) ∧
      ∀ ea, longAddress m s = .next ea → StopsAs (loadWord ea s) (exec i s)) ∧
    (∀ r m, i = .blm r m → StopsAs (longAddress m s) (exec i s)) ∧
    (∀ r x, i = .lbx r x ∨ i = .sbx r x → r ≠ 0#4 → StopsAs (byteAddress x s) (exec i s) ∧
      ∀ a left, byteAddress x s = .next (a, left) → StopsAs (loadWord a s) (exec i s)) ∧
    (∀ r p, r ≠ 0#4 → Width.admits .double p = true → s.psw.pv = true →
      (i = .ldam r p → StopsAs (physRead (s.regs.getMulti .double p) s) (exec i s)) ∧
      (i = .stan r p → StopsAs (physWrite (s.regs.getMulti .double p) (s.regs.get r) s) (exec i s)))

/-- The adder and the subtracter give the sum and difference and the codes of R29, read as integers (10_state.md R29). -/
def Obligations.AdderMatchesIntegers : Prop :=
  ∀ (k : Width) (a b : BitVec k.bits),
    adder a b false = ⟨a + b, (sumCodes a b).c, (sumCodes a b).o⟩ ∧
    subtract a b = ⟨a - b, (differenceCodes a b).c, (differenceCodes a b).o⟩ ∧
    subtract 0#k.bits b = ⟨-b, b == 0#k.bits, b == BitVec.intMin k.bits⟩

/-- The character classes of R30 (10_state.md R30). -/
def Obligations.CharactersAreClassified : Prop :=
  ∀ c : Byte,
    (0x28 ≤ c.toNat ∧ c.toNat ≤ 0x2F → (classify c).n = true ∧
      4 * (classify c).z.toNat + 2 * (classify c).o.toNat + (classify c).c.toNat = c.toNat - 0x28) ∧
    (c.toNat = 0x20 → classify c = ⟨false, false, true, true⟩) ∧
    (0x30 ≤ c.toNat ∧ c.toNat ≤ 0x39 → classify c = ⟨false, true, false, true⟩) ∧
    (0x41 ≤ c.toNat ∧ c.toNat ≤ 0x5A → classify c = ⟨false, false, false, false⟩) ∧
    (0x61 ≤ c.toNat ∧ c.toNat ≤ 0x7A → classify c = Config.chLower c) ∧
    (0x80 ≤ c.toNat → classify c = Config.chHigh c) ∧
    (c.toNat < 0x20 ∨ 0x21 ≤ c.toNat ∧ c.toNat < 0x28 ∨ 0x3A ≤ c.toNat ∧ c.toNat < 0x41 ∨ 0x5B ≤ c.toNat ∧ c.toNat < 0x61
      ∨ 0x7B ≤ c.toNat ∧ c.toNat < 0x80 → classify c = ⟨false, false, false, true⟩)

/-- PS as a number, and back (10_state.md R26). -/
def Obligations.StatusWordLayout : Prop :=
  (∀ p : Psw, p.toWord.toNat = p.im.toNat * 2 ^ 13 + p.pv.toNat * 2 ^ 12 + p.grb.toNat * 2 ^ 8 + p.om.toNat * 2 ^ 5
    + p.oh.toNat * 2 ^ 4 + p.n.toNat * 8 + p.z.toNat * 4 + p.o.toNat * 2 + p.c.toNat ∧ Psw.ofWord p.toWord = p) ∧
  ∀ w : Word, (Psw.ofWord w).toWord = w

/-- Load rows copy their operand and set no code; transfer rows and load bit set N and Z from it (40_move.md R200, R201,
R203-R208, R231-R234; 10_state.md R28). -/
def Obligations.LoadAndTransferRowsCopy : Prop :=
  ∀ (i : Instr) (op : Alu) (row : RegisterRow) (s : State) (b : BitVec row.k.bits), registerRow i = some (op, row) →
    op ∈ [Alu.copy, .transfer] → row.k.admits row.r = true → row.src.read s = .next b →
    ∃ t, exec i s = .next t ∧ WritesRegister s t row.k row.r b ∧ EndsAs row.nx s t b ∧ t.draws = s.draws ∧
      (op = .copy → t.psw = s.psw) ∧ (op = .transfer → t.psw = s.psw.withSign b)

/-- ABR, ABRB, ADR, ADRB, ADRD, ADM, ADMD, ADI, ADS, ADX: sum, four codes, overflow history (45_add_subtract.md R365,
R366, R373-R375, R382-R386; 10_state.md R29, R31). -/
def Obligations.RegisterAddsAreExact : Prop :=
  ∀ (i : Instr) (row : RegisterRow) (s : State) (b : BitVec row.k.bits), registerRow i = some (.add, row) →
    row.k.admits row.r = true → row.src.read s = .next b →
    ∃ t, exec i s = .next t ∧ 
      WritesRegister s t row.k row.r (s.regs.getMulti row.k row.r + b) ∧
      t.psw = s.psw.withCodes (sumCodes (s.regs.getMulti row.k row.r) b) ∧ t.draws = s.draws ∧
      EndsAs row.nx s t (s.regs.getMulti row.k row.r + b)

/-- SBR, SBRB, SUR, SURB, SURD, SUM, SUMD, SUI, SUS, SUX: difference, four codes, overflow history (45_add_subtract.md
R387-R396; 10_state.md R29, R31). -/
def Obligations.RegisterSubtractsAreExact : Prop :=
  ∀ (i : Instr) (row : RegisterRow) (s : State) (b : BitVec row.k.bits), registerRow i = some (.subtract, row) →
    row.k.admits row.r = true → row.src.read s = .next b →
    ∃ t, exec i s = .next t ∧ 
      WritesRegister s t row.k row.r (s.regs.getMulti row.k row.r - b) ∧
      t.psw = s.psw.withCodes (differenceCodes (s.regs.getMulti row.k row.r) b) ∧ t.draws = s.draws ∧
      EndsAs row.nx s t (s.regs.getMulti row.k row.r - b)

/-- TTR, TTRB, TTRD, TTRQ: the negated operand, C for 0, O for the most negative number (46_multiply_divide.md
R409-R412; 10_state.md R29, R31). -/
def Obligations.TwosComplementRowsNegate : Prop :=
  ∀ (i : Instr) (row : RegisterRow) (s : State) (b : BitVec row.k.bits), registerRow i = some (.negate, row) →
    row.k.admits row.r = true → row.src.read s = .next b →
    ∃ t, exec i s = .next t ∧ WritesRegister s t row.k row.r (-b) ∧
      t.psw = s.psw.withCodes ⟨(-b).msb, -b == 0#row.k.bits, b == BitVec.intMin row.k.bits, b == 0#row.k.bits⟩ ∧
      t.draws = s.draws ∧ EndsAs row.nx s t (-b)

/-- Extract, OR, exclusive OR and one's complement to a register, N and Z from the result (Extract: log 9)
(42_logical.md R258, R259, R266-R269, R275, R276, R280-R283, R286-R292; 00_scope.md R12). -/
def Obligations.LogicalRegisterRows : Prop :=
  ∀ (i : Instr) (op : Alu) (row : RegisterRow) (s : State) (b : BitVec row.k.bits), registerRow i = some (op, row) →
    op ∈ [Alu.extract, .inclusiveOr, .exclusiveOr, .complement] →
    row.k.admits row.r = true → row.src.read s = .next b →
    ∃ t v, exec i s = .next t ∧
      (op = .extract → v = s.regs.getMulti row.k row.r &&& b) ∧ (op = .inclusiveOr → v = s.regs.getMulti row.k row.r ||| b) ∧
      (op = .exclusiveOr → v = s.regs.getMulti row.k row.r ^^^ b) ∧ (op = .complement → v = ~~~b) ∧
      WritesRegister s t row.k row.r v ∧ t.psw = s.psw.withSign v ∧ t.draws = s.draws ∧ EndsAs row.nx s t v

/-- ZBR and ZBRB clear the named bit of R, set no code, and ZBRB branches if R is not zero (42_logical.md R250, R251;
20_memory.md R71). -/
def Obligations.ZeroBitInRegister : Prop :=
  ∀ (r : Reg) (n : Nibble) (b : Word) (s : State), r ≠ 0#4 →
    decodeWords [0x6200#16 ||| (r ++ n).zeroExtend 16] = .ok (.zbr r n, []) ∧
    decodeWords [0x7200#16 ||| (r ++ n).zeroExtend 16, b] = .ok (.zbrb r n b, []) ∧
    ∃ (v : Word) (t u : State), (∀ k < 16, v.getLsbD k = (decide (k ≠ 15 - n.toNat) && (s.regs.get r).getLsbD k)) ∧
      exec (.zbr r n) s = .next t ∧ WritesRegister s t .single r v ∧ SameStatus s t ∧ t.pc = s.pc + 1 ∧
      exec (.zbrb r n b) s = .next u ∧ WritesRegister s u .single r v ∧ SameStatus s u ∧
      u.pc = if v = 0#16 then s.pc + 2 else b

/-- OBR, OBRB set and XBR, XBRB flip the named bit; N and Z from the result, O and C free (42_logical.md R270, R271,
R284, R285; 10_state.md R28, R31; 20_memory.md R71). -/
def Obligations.SetAndFlipBitInRegister : Prop :=
  ∀ (r : Reg) (n : Nibble) (b : Word) (s : State), r ≠ 0#4 →
    (∃ (v : Word) (t u : State), (∀ k < 16, v.getLsbD k = (decide (k = 15 - n.toNat) || (s.regs.get r).getLsbD k)) ∧
      exec (.obr r n) s = .next t ∧ WritesRegister s t .single r v ∧ SignDrawn s t v ∧ t.pc = s.pc + 1 ∧
      exec (.obrb r n b) s = .next u ∧ WritesRegister s u .single r v ∧ SignDrawn s u v ∧ u.pc = b) ∧
    (∃ (v : Word) (t u : State), (∀ k < 16, v.getLsbD k = (decide (k = 15 - n.toNat) != (s.regs.get r).getLsbD k)) ∧
      exec (.xbr r n) s = .next t ∧ WritesRegister s t .single r v ∧ SignDrawn s t v ∧ t.pc = s.pc + 1 ∧
      exec (.xbrb r n b) s = .next u ∧ WritesRegister s u .single r v ∧ SignDrawn s u v ∧
      u.pc = if v = 0#16 then s.pc + 2 else b)

/-- GMR and GMRB: ones in bits 0 to BIT; N, Z and O set, C kept; OH with O is log 26; class T, executed by log 8
(41_shift.md R248, R249; 10_state.md R31). -/
def Obligations.GenerateMaskFillsFromTheLeft : Prop :=
  ∀ (r : Reg) (n : Nibble) (b : Word) (s : State), r ≠ 0#4 →
    ∃ (v : Word) (t u : State), (∀ k < 16, v.getLsbD k = decide (15 - n.toNat ≤ k)) ∧
      exec (.gmr r n) s = .next t ∧ WritesRegister s t .single r v ∧ t.pc = s.pc + 1 ∧
      exec (.gmrb r n b) s = .next u ∧ WritesRegister s u .single r v ∧ u.pc = b ∧
      u.psw = t.psw ∧ t.draws = s.draws ∧ u.draws = s.draws ∧
      t.psw = { s.psw with n := true, z := false, o := n == 0#4, oh := s.psw.oh || n == 0#4 }

/-- ABMM, ABMB, ABSM, ABSB, ABXM, ABXB, ADMM, ADMB, ADSM, ADSB, ADXM, ADXB: the sum in memory (45_add_subtract.md
R367-R372, R376-R381; 10_state.md R29, R31; 20_memory.md R77). -/
def Obligations.MemoryAddsAreExact : Prop :=
  ∀ (i : Instr) (row : MemoryRow) (s : State) (b ea a : Word), memoryRow i = some (.add, row) →
    row.src.read s = .next b → effectiveAddress row.o s = .next ea → HoldsWord s ea a →
    ∃ t, exec i s = .next t ∧ 
      WritesWord s t ea (a + b) ∧ t.psw = s.psw.withCodes (sumCodes a b) ∧ t.draws = s.draws ∧ EndsAs row.nx s t (a + b)

/-- Zero Bit, Extract and OR in memory (Extract: log 9) (42_logical.md R252-R257, R260-R265, R277-R279; 00_scope.md
R12). -/
def Obligations.LogicalMemoryRows : Prop :=
  ∀ (i : Instr) (op : Alu) (row : MemoryRow) (s : State) (b ea a : Word), memoryRow i = some (op, row) → op ∈ [Alu.zeroBit, .extract, .inclusiveOr] →
    row.src.read s = .next b → effectiveAddress row.o s = .next ea → HoldsWord s ea a →
    ∃ t, exec i s = .next t ∧ ∃ v,
      (op = .zeroBit → v = a &&& ~~~b ∧ t.psw = s.psw) ∧ (op = .extract → v = a &&& b ∧ t.psw = s.psw.withSign v) ∧
      (op = .inclusiveOr → v = a ||| b ∧ t.psw = s.psw.withSign v) ∧
      WritesWord s t ea v ∧ t.draws = s.draws ∧ EndsAs row.nx s t v

/-- OBMM, OBSM, OBXM: the named bit of the word set; N and Z from it, O and C free (42_logical.md R272-R274; 10_state.md
R28, R31). -/
def Obligations.SetBitInMemory : Prop :=
  ∀ (i : Instr) (row : MemoryRow) (s : State) (b ea a : Word), memoryRow i = some (.setBit, row) →
    row.src.read s = .next b → effectiveAddress row.o s = .next ea → HoldsWord s ea a →
    ∃ t, exec i s = .next t ∧ WritesWord s t ea (a ||| b) ∧ SignDrawn s t (a ||| b) ∧ EndsAs row.nx s t (a ||| b)

/-- CRR, CRRD, CRM, CRMB, CRMD, CRI, CRS, CRSB, CRX, CRXB: codes of the difference, and what they mean
(43_compare_test.md R296-R305; 10_state.md R29, R31, R43). -/
def Obligations.ComparesOrderTheirOperands : Prop :=
  ∀ (i : Instr) (row : InspectRow) (s : State) (a b : BitVec row.k.bits), inspectRow i = some (.subtract, row) →
    row.first.read s = .next a → row.second.read s = .next b →
    ∃ t, exec i s = .next t ∧ SameData s t ∧ t.psw = s.psw.withCodes (differenceCodes a b) ∧
      t.draws = s.draws ∧ EndsAs row.nx s t (a - b) ∧ (holdsCondition t.psw .less ↔ a.toInt < b.toInt) ∧
      (holdsCondition t.psw .z ↔ a = b) ∧ (holdsCondition t.psw .higher ↔ b.toNat < a.toNat)

/-- TBR, TBRB, TBMM, TBMB, TBSM, TBSB, TBXM, TBXB: Z tells whether the bit is 0; the B rows branch if it is 1
(43_compare_test.md R306-R313; 10_state.md R28, R31). -/
def Obligations.TestBitTellsTheBit : Prop :=
  ∀ (i : Instr) (row : InspectRow) (s : State) (a b : BitVec row.k.bits), inspectRow i = some (.testBit, row) →
    row.first.read s = .next a → row.second.read s = .next b →
    ∃ t, exec i s = .next t ∧ SameData s t ∧ SameMode s.psw t.psw ∧
      t.psw.z = (a &&& b == 0#row.k.bits) ∧ (s.psw.oh = true → t.psw.oh = true) ∧ EndsAs row.nx s t (a &&& b)

/-- TEK, TRMB, TRSB, TRXB: N and Z of the AND, and a branch exactly where a one is common (43_compare_test.md
R314-R317). -/
def Obligations.TestRegisterBranchesOnCommonOnes : Prop :=
  ∀ (i : Instr) (row : InspectRow) (s : State) (a b : BitVec row.k.bits), inspectRow i = some (.testOnes, row) →
    row.first.read s = .next a → row.second.read s = .next b →
    ∃ t, exec i s = .next t ∧ SameData s t ∧ t.psw = s.psw.withSign (a &&& b) ∧ t.draws = s.draws ∧
      EndsAs row.nx s t (a &&& b)

/-- STM, STMD, STS, STX, STXD, STI: the register words at the address, nothing else (40_move.md R213-R218; 20_memory.md
R67, R75). -/
def Obligations.StoresWriteRegisterWords : Prop :=
  (∀ (i : Instr) (row : StoreRow) (s : State) (ea : Word), storeRow i = some row → row.k.admits row.r = true →
    effectiveAddress row.o s = .next ea → (∀ k < row.k.words, s.launched (ea + BitVec.ofNat 16 k) = true) →
    ∃ t, exec i s = .next t ∧ WordsAt t ea (s.regs.file row.r row.k.words) ∧ SameBytesOutside s t ea row.k.words ∧
      t.regs = s.regs ∧ SameStatus s t ∧ SameControl s t ∧ t.pc = s.pc + BitVec.ofNat 16 row.words) ∧
  (∀ (r : Reg) (v : Word) (s : State), r ≠ 0#4 → s.launched (s.pc + 1) = true →
    ∃ t, exec (.sti r v) s = .next t ∧ WritesWord s t (s.pc + 1) (s.regs.get r) ∧ SameStatus s t ∧ t.pc = s.pc + 2)

/-- LFM, LFS, LFX load and SFM, SFS, SFX store registers R to 15 (class T: log 8) (40_move.md R209-R211, R219-R221;
20_memory.md R78). -/
def Obligations.FileRowsMoveAllRegistersUp : Prop :=
  (∀ (i : Instr) (row : FileRow) (s : State) (ea : Word) (vs : List Word), loadFileRow i = some row → row.r ≠ 0#4 →
    effectiveAddress row.o s = .next ea → vs.length = 16 - row.r.toNat →
    (∀ (k : Nat) (h : k < vs.length), HoldsWord s (ea + BitVec.ofNat 16 k) vs[k]) →
    ∃ t, exec i s = .next t ∧ t.regs.file row.r (16 - row.r.toNat) = vs ∧
      (∀ q : Reg, q.toNat < row.r.toNat → t.regs.get q = s.regs.get q) ∧ SameBytes s t ∧ SameStatus s t ∧ SameControl s t ∧
      t.pc = s.pc + BitVec.ofNat 16 row.words) ∧
  (∀ (i : Instr) (row : FileRow) (s : State) (ea : Word), storeFileRow i = some row → row.r ≠ 0#4 →
    effectiveAddress row.o s = .next ea → (∀ k < 16 - row.r.toNat, s.launched (ea + BitVec.ofNat 16 k) = true) →
    ∃ t, exec i s = .next t ∧ WordsAt t ea (s.regs.file row.r (16 - row.r.toNat)) ∧
      SameBytesOutside s t ea (16 - row.r.toNat) ∧ t.regs = s.regs ∧ SameStatus s t ∧ SameControl s t ∧
      t.pc = s.pc + BitVec.ofNat 16 row.words)

/-- LBX and SBX: the byte at offset x[X OR 1] from the word x[X]; left if even (class T: log 8) (40_move.md R202, R212;
20_memory.md R61, R72; 10_state.md R28, R30). -/
def Obligations.ByteLoadsAndStoresSelectOneByte : Prop :=
  ∀ (r x : Reg) (a v : Word) (s : State), r ≠ 0#4 →
    (1 ≤ x.toNat → x.toNat ≤ 7 → a = s.regs.get x + BitVec.ofNat 16 ((s.regs.get (x ||| 1#4)).toNat / 2) → HoldsWord s a v →
      (∃ t c, exec (.lbx r x) s = .next t ∧
        c = (if (s.regs.get (x ||| 1#4)).toNat % 2 = 0 then v.extractLsb' 8 8 else v.extractLsb' 0 8) ∧
        WritesRegister s t .single r (0#8 ++ c) ∧ t.psw = s.psw.withClass (classify c) ∧ t.draws = s.draws ∧
        t.pc = s.pc + 1) ∧
      (∃ t, exec (.sbx r x) s = .next t ∧ SameStatus s t ∧ t.pc = s.pc + 1 ∧
        WritesWord s t a (if (s.regs.get (x ||| 1#4)).toNat % 2 = 0
          then (s.regs.get r).extractLsb' 0 8 ++ v.extractLsb' 0 8
          else v.extractLsb' 8 8 ++ (s.regs.get r).extractLsb' 0 8))) ∧
    (x.toNat = 0 ∨ 8 ≤ x.toNat → exec (.lbx r x) s = .refused .indexRegister ∧ exec (.sbx r x) s = .refused .indexRegister)

/-- MLR, MBR, MUR, MBL, IBR: one byte moved, the other cleared (logs 8, 10), or both exchanged (40_move.md R224-R228;
10_state.md R28, R30, R31). -/
def Obligations.ByteMovesBetweenRegisters : Prop :=
  ∀ (r q : Reg) (s : State), r ≠ 0#4 → q ≠ 0#4 →
    (∃ t, exec (.mlr r q) s = .next t ∧ WritesRegister s t .single r (0#8 ++ (s.regs.get q).extractLsb' 0 8) ∧
      t.psw = s.psw.withClass (classify ((s.regs.get q).extractLsb' 0 8)) ∧ t.draws = s.draws ∧ t.pc = s.pc + 1) ∧
    (∃ t, exec (.mbr r q) s = .next t ∧ WritesRegister s t .single r (0#8 ++ (s.regs.get q).extractLsb' 8 8) ∧
      t.psw = s.psw.withClass (classify ((s.regs.get q).extractLsb' 8 8)) ∧ t.draws = s.draws ∧ t.pc = s.pc + 1) ∧
    (∃ t, exec (.mur r q) s = .next t ∧ WritesRegister s t .single r ((s.regs.get q).extractLsb' 8 8 ++ 0#8) ∧
      SameMode s.psw t.psw ∧ (s.psw.oh = true → t.psw.oh = true) ∧ t.pc = s.pc + 1) ∧
    (∃ t, exec (.mbl r q) s = .next t ∧ WritesRegister s t .single r ((s.regs.get q).extractLsb' 0 8 ++ 0#8) ∧
      SameMode s.psw t.psw ∧ (s.psw.oh = true → t.psw.oh = true) ∧ t.pc = s.pc + 1) ∧
    (∃ t, exec (.ibr r q) s = .next t ∧
      WritesRegister s t .single r ((s.regs.get q).extractLsb' 0 8 ++ (s.regs.get q).extractLsb' 8 8) ∧
      t.psw = s.psw.withClass (classify ((s.regs.get q).extractLsb' 8 8)) ∧ t.draws = s.draws ∧ t.pc = s.pc + 1)

/-- IRM swaps R with a word of memory, IRR swaps two registers (40_move.md R229, R230; 20_memory.md R78). -/
def Obligations.InterchangesSwap : Prop :=
  (∀ (r : Reg) (m : LongAddress) (ea v : Word) (s : State), r ≠ 0#4 → longAddress m s = .next ea → HoldsWord s ea v →
    ∃ t, exec (.irm r m) s = .next t ∧ OnlyRegisters s.regs t.regs .single r v ∧ t.mem.readWord ea = some (s.regs.get r) ∧
      SameBytesOutside s t ea 1 ∧ SameStatus s t ∧ SameControl s t ∧ t.pc = s.pc + 2) ∧
  (∀ (r q : Reg) (s : State), r ≠ 0#4 → q ≠ 0#4 →
    ∃ t, exec (.irr r q) s = .next t ∧ t.regs.get r = s.regs.get q ∧ t.regs.get q = s.regs.get r ∧
      (∀ p, p ≠ r → p ≠ q → t.regs.get p = s.regs.get p) ∧ SameBytes s t ∧ SameStatus s t ∧ SameControl s t ∧
      t.pc = s.pc + 1)

/-- The twelve shifts multiply or divide by 2^C; N and Z from the result, O and C free (41_shift.md R235-R246;
10_state.md R28, R31). -/
def Obligations.ShiftsScaleByPowersOfTwo : Prop :=
  ∀ (i : Instr) (row : ShiftRow) (s : State), shiftRow i = some row → row.k.admits row.r = true →
    ∃ (t : State) (v : BitVec row.k.bits), exec i s = .next t ∧ WritesRegister s t row.k row.r v ∧ SignDrawn s t v ∧
      t.pc = s.pc + 1 ∧
      match row.kind with
      | .arithmeticRight => v.toInt = (s.regs.getMulti row.k row.r).toInt / 2 ^ row.c.toNat
      | .logicalRight => v.toNat = (s.regs.getMulti row.k row.r).toNat / 2 ^ row.c.toNat
      | .logicalLeft => v.toNat = (s.regs.getMulti row.k row.r).toNat * 2 ^ row.c.toNat % 2 ^ row.k.bits
      | .arithmeticLeft => fitsSigned row.k.bits ((s.regs.getMulti row.k row.r).toInt * 2 ^ row.c.toNat) = true →
          v.toInt = (s.regs.getMulti row.k row.r).toInt * 2 ^ row.c.toNat

/-- HZR, HZS, HNR, HNS, HCR, HCS, HOR, HOS, HLS, HLE, HGE, HGT, HNH, HHI hop by N where their condition holds
(44_branch.md R319-R332; 10_state.md R43; 20_memory.md R70; 30_encoding.md R111). -/
def Obligations.ConditionalHops : Prop :=
  ∀ (i : Instr) (row : HopRow) (s : State), hopRow i = some row →
    (row.n ≠ 0x40#7 → ∃ t, exec i s = .next t ∧ OnlyPc s t ∧
      (Branches s.psw row.cond row.inverted → t.pc = s.pc + BitVec.ofInt 16 row.n.toInt) ∧
      (¬ Branches s.psw row.cond row.inverted → t.pc = s.pc + 1)) ∧
    (row.n = 0x40#7 → exec i s = .refused .hopField)

/-- HOP goes to its own address plus N; NOP is the word F701, a HOP to the next word (44_branch.md R318; 48_control.md
R444; 20_memory.md R70; 30_encoding.md R111). -/
def Obligations.UnconditionalHopAndNullOperation : Prop :=
  (∀ (n : BitVec 7) (s : State), n ≠ 0x40#7 →
    ∃ t, exec (.hop n) s = .next t ∧ OnlyPc s t ∧ t.pc = s.pc + BitVec.ofInt 16 n.toInt) ∧
  (∀ s : State, exec (.hop 0x40#7) s = .refused .hopField ∧
    (∃ t, exec .nop s = .next t ∧ OnlyPc s t ∧ t.pc = s.pc + 1) ∧ exec (.hop 1#7) s = exec .nop s) ∧
  decodeWords [0xF701#16] = .ok (.hop 1#7, [])

/-- BXR, BXS, BXNR, BXNS, BXCR, BXCS, BXOR, BXOS, BXLS, BXLE, BXGE, BXGT, BXNH, BXHI go to the address in X
(44_branch.md R333-R346; 10_state.md R43; 20_memory.md R69). -/
def Obligations.ShortIndexedBranches : Prop :=
  ∀ (i : Instr) (row : IndexedBranchRow) (s : State), indexedBranchRow i = some row →
    (1 ≤ row.x.toNat ∧ row.x.toNat ≤ 7 → ∃ t, exec i s = .next t ∧ OnlyPc s t ∧
      (Branches s.psw row.cond row.inverted → t.pc = s.regs.get row.x) ∧
      (¬ Branches s.psw row.cond row.inverted → t.pc = s.pc + 1)) ∧
    (row.x.toNat = 0 ∨ 8 ≤ row.x.toNat → exec i s = .refused .indexRegister)

/-- BLZR, BLZS, BLNR, BLNS, BLCR, BLCS, BLOR, BLOS, BLLS, BLLE, BLGE, BLGT, BLNH, BLHI branch and save the link
(44_branch.md R351-R364; 10_state.md R21, R43). -/
def Obligations.ConditionalBranchAndLink : Prop :=
  ∀ (i : Instr) (row : LinkBranchRow) (s : State), linkBranchRow i = some row →
    ∃ t, exec i s = .next t ∧ SameStatus s t ∧ SameBytes s t ∧ SameControl s t ∧
      (Branches s.psw row.cond row.inverted → t.pc = row.b ∧
        (row.r = 0#4 → t.regs = s.regs) ∧ (row.r ≠ 0#4 → OnlyRegisters s.regs t.regs .single row.r (s.pc + 2))) ∧
      (¬ Branches s.psw row.cond row.inverted → t.pc = s.pc + 2 ∧ t.regs = s.regs)

/-- BLM, BLI, BLX save the return address; the target is computed from the old registers (44_branch.md R347-R349;
10_state.md R21; 20_memory.md R78). -/
def Obligations.UnconditionalBranchAndLink : Prop :=
  (∀ (r : Reg) (m : LongAddress) (ea : Word) (s : State), longAddress m s = .next ea →
    ∃ t, exec (.blm r m) s = .next t ∧ t.pc = ea ∧ (r = 0#4 → t.regs = s.regs) ∧
      (r ≠ 0#4 → OnlyRegisters s.regs t.regs .single r (s.pc + 2)) ∧ SameStatus s t ∧ SameBytes s t ∧ SameControl s t) ∧
  (∀ (r : Reg) (s : State), (r = 0#4 → exec (.bli r) s = .refused .registerZero) ∧
    (r ≠ 0#4 → ∃ t, exec (.bli r) s = .next t ∧ WritesRegister s t .single r (s.pc + 1) ∧ SameStatus s t ∧
      t.pc = s.pc + 1)) ∧
  (∀ (r x : Reg) (s : State), (1 ≤ x.toNat ∧ x.toNat ≤ 7 →
      ∃ t, exec (.blx r x) s = .next t ∧ t.pc = s.regs.get x ∧ (r = 0#4 → t.regs = s.regs) ∧
        (r ≠ 0#4 → OnlyRegisters s.regs t.regs .single r (s.pc + 1)) ∧ SameStatus s t ∧ SameBytes s t ∧ SameControl s t) ∧
    (x.toNat = 0 ∨ 8 ≤ x.toNat → exec (.blx r x) s = .refused .indexRegister))

/-- MPR, MPM, MPS, MPX: the exact signed product of the odd register and the operand in the pair (log 8)
(46_multiply_divide.md R397, R399, R401, R402; 10_state.md R28, R31). -/
def Obligations.MultiplyIsExact : Prop :=
  ∀ (i : Instr) (row : PairRow) (s : State) (b : Word), multiplyRow i = some row → Width.admits .double row.r = true →
    row.src.read s = .next b →
    ∃ (t : State) (p : BitVec 32), exec i s = .next t ∧ WritesRegister s t .double row.r p ∧
      p.toInt = (s.regs.get (row.r + 1)).toInt * b.toInt ∧ SignDrawn s t p ∧ t.pc = s.pc + BitVec.ofNat 16 row.words

/-- DVR, DVM, DVS, DVX: quotient to R+1, remainder to R, or overflow (log 8) (46_multiply_divide.md R403, R405, R407,
R408; 10_state.md R28, R31). -/
def Obligations.DivideTruncatesOrOverflows : Prop :=
  ∀ (i : Instr) (row : PairRow) (s : State) (b : Word) (q : Int), divideRow i = some row →
    Width.admits .double row.r = true → row.src.read s = .next b →
    q = (s.regs.getMulti .double row.r).toInt.tdiv b.toInt →
    ∃ (t : State) (p : BitVec 32), exec i s = .next t ∧ WritesRegister s t .double row.r p ∧ SameMode s.psw t.psw ∧
      t.pc = s.pc + BitVec.ofNat 16 row.words ∧
      if b ≠ 0#16 ∧ -32768 ≤ q ∧ q ≤ 32767 then
        (t.regs.get (row.r + 1)).toInt = q ∧
        (t.regs.get row.r).toInt = (s.regs.getMulti .double row.r).toInt.tmod b.toInt ∧
        t.psw.n = decide (q < 0) ∧ t.psw.z = decide (q = 0) ∧ t.psw.o = false ∧ t.psw.oh = s.psw.oh
      else t.psw.o = true ∧ t.psw.oh = true

/-- ESS and ESD: the same signed number at twice the width (46_multiply_divide.md R413, R414; 10_state.md R22, R28,
R31). -/
def Obligations.ExtendSignKeepsTheNumber : Prop :=
  ∀ (r q : Reg) (s : State),
    (Width.admits .double r = true → q ≠ 0#4 →
      ∃ (t : State) (v : BitVec 32), exec (.ess r q) s = .next t ∧ WritesRegister s t .double r v ∧
        v.toInt = (s.regs.get q).toInt ∧ SignDrawn s t v ∧ t.pc = s.pc + 1) ∧
    (Width.admits .quad r = true → Width.admits .double q = true →
      ∃ (t : State) (v : BitVec 64), exec (.esd r q) s = .next t ∧ WritesRegister s t .quad r v ∧
        v.toInt = (s.regs.get q ++ s.regs.get (q + 1)).toInt ∧ SignDrawn s t v ∧ t.pc = s.pc + 1)

/-- The 24 floating-point rows and 3 conversions write what their FP function returns; the indirect form refuses
(47_floating.md R415-R441, R491; 10_state.md R31). -/
def Obligations.FloatingRowsApplyTheParameter : Prop :=
  (∀ (i : Instr) (row : FloatRow) (s : State), floatRow i = some row →
    (row.indirect = true → exec i s = .refused .floatingIndirect) ∧
    ∀ b : BitVec row.k.bits, row.indirect = false → row.k.admits row.r = true → row.src.read s = .next b →
      ∃ t x, exec i s = .next t ∧
        x = (match row.op with
          | .add => Config.fpAdd row.k.bits (s.regs.getMulti row.k row.r) b
          | .subtract => Config.fpSub row.k.bits (s.regs.getMulti row.k row.r) b
          | .multiply => Config.fpMul row.k.bits (s.regs.getMulti row.k row.r) b
          | .divide => Config.fpDiv row.k.bits (s.regs.getMulti row.k row.r) b) ∧
        WritesRegister s t row.k row.r x.value ∧ t.psw = s.psw.withClass x.codes ∧ t.draws = s.draws ∧
        t.pc = s.pc + BitVec.ofNat 16 row.words) ∧
  (∀ (r q : Reg) (s : State), Width.admits .double r = true →
    (Width.admits .double q = true →
      (∃ t x, exec (.cdie r q) s = .next t ∧ x = Config.fpFromInt32 (s.regs.get q ++ s.regs.get (q + 1)) ∧
        WritesRegister s t .double r x.value ∧ t.psw = s.psw.withClass x.codes ∧ t.draws = s.draws ∧ t.pc = s.pc + 1) ∧
      (∃ t x, exec (.cfdi r q) s = .next t ∧ x = Config.fpToInt32 (s.regs.get q ++ s.regs.get (q + 1)) ∧
        WritesRegister s t .double r x.value ∧ t.psw = s.psw.withClass x.codes ∧ t.draws = s.draws ∧ t.pc = s.pc + 1)) ∧
    (Width.admits .quad q = true →
      ∃ t x, exec (.coff r q) s = .next t ∧ x = Config.fpNarrow64 (s.regs.getMulti .quad q) ∧
        WritesRegister s t .double r x.value ∧ t.psw = s.psw.withClass x.codes ∧ t.draws = s.draws ∧ t.pc = s.pc + 1))

/-- LCIE, LCIA, LCIP, LCCC, LCPS read the latch words, the codes and PS, in either privilege state (R446; R447; R448;
R449; R450). -/
def Obligations.ControlWordsAreReadIntoR : Prop :=
  ∀ (r : Reg) (s : State),
    decodeWords [0x0E05#16 ||| (r ++ 0#4).zeroExtend 16] = .ok (.lcie r, []) ∧
    decodeWords [0x0E04#16 ||| (r ++ 0#4).zeroExtend 16] = .ok (.lcia r, []) ∧
    decodeWords [0x0E06#16 ||| (r ++ 0#4).zeroExtend 16] = .ok (.lcip r, []) ∧
    decodeWords [0x0E03#16 ||| (r ++ 0#4).zeroExtend 16] = .ok (.lccc r, []) ∧
    decodeWords [0x0E02#16 ||| (r ++ 0#4).zeroExtend 16] = .ok (.lcps r, []) ∧
    (r = 0#4 → ∀ i ∈ [Instr.lcie r, .lcia r, .lcip r, .lccc r, .lcps r], exec i s = .refused .registerZero) ∧
    (r ≠ 0#4 → ∀ p ∈ [(Instr.lcie r, s.ie), (.lcia r, s.ia), (.lcip r, s.ir),
        (.lccc r, BitVec.ofNat 16 (8 * s.psw.n.toNat + 4 * s.psw.z.toNat + 2 * s.psw.o.toNat + s.psw.c.toNat)),
        (.lcps r, BitVec.ofNat 16 (s.psw.im.toNat * 2 ^ 13 + s.psw.pv.toNat * 2 ^ 12 + s.psw.grb.toNat * 2 ^ 8
          + s.psw.om.toNat * 2 ^ 5 + s.psw.oh.toNat * 2 ^ 4 + 8 * s.psw.n.toNat + 4 * s.psw.z.toNat
          + 2 * s.psw.o.toNat + s.psw.c.toNat))],
      ∃ t, exec p.1 s = .next t ∧ WritesRegister s t .single r p.2 ∧ SameStatus s t ∧ t.pc = s.pc + 1)

/-- LCPR reads the address of the next word (logs 8, 11); SCCC sets the codes from R (48_control.md R451, R452;
10_state.md R28). -/
def Obligations.ProgramRegisterAndCodesMove : Prop :=
  ∀ (r : Reg) (s : State),
    (r = 0#4 → exec (.lcpr r) s = .refused .registerZero ∧ exec (.sccc r) s = .refused .registerZero) ∧
    (r ≠ 0#4 →
      (∃ t, exec (.lcpr r) s = .next t ∧ WritesRegister s t .single r (s.pc + 1) ∧ SameStatus s t ∧ t.pc = s.pc + 1) ∧
      (∃ t, exec (.sccc r) s = .next t ∧ SameData s t ∧ t.draws = s.draws ∧ t.pc = s.pc + 1 ∧
        t.psw = s.psw.withClass ⟨(s.regs.get r).getLsbD 3, (s.regs.get r).getLsbD 2, (s.regs.get r).getLsbD 1,
          (s.regs.get r).getLsbD 0⟩))

/-- HLT: every word 00xx; privileged; the run state becomes halted; a step from there is the fault halted (log 28)
(48_control.md R454; 70_reset_and_hazards.md R655). -/
def Obligations.HaltStopsTheMachine : Prop :=
  (∀ b : Byte, decodeWords [0#8 ++ b] = .ok (.hlt, [])) ∧
  (∀ s : State, (s.psw.pv = false → exec .hlt s = .fault .privilegeViolation) ∧
    (s.psw.pv = true → exec .hlt s = .next { s with run := .halted, pc := s.pc + 1 })) ∧
  (∀ s : State, s.run = .halted → step s = .fault .halted)

/-- RMI: the environment receives one request, and nothing else but pc changes (R443). -/
def Obligations.MultiprocessorRequestIsAnEvent : Prop :=
  (∀ q : Nibble, decodeWords [0x010#12 ++ q] = .ok (.rmi, [])) ∧
  ∀ s : State, exec .rmi s = .next { s with outputs := .multiprocessorRequest :: s.outputs, pc := s.pc + 1 }

/-- LDAM and STAN: one word of actual memory at the address in the pair (logs 8, 10) (48_control.md R470, R472;
20_memory.md R87). -/
def Obligations.ActualMemoryRows : Prop :=
  ∀ (r p : Reg) (a v : Word) (s : State), s.psw.pv = true → r ≠ 0#4 → Width.admits .double p = true →
    ((s.regs.getMulti .double p).toNat = a.toNat → s.launched a = true →
      (s.mem.readWord a = some v → ∃ t, exec (.ldam r p) s = .next t ∧ WritesRegister s t .single r v ∧
        t.psw = s.psw.withSign v ∧ t.draws = s.draws ∧ t.pc = s.pc + 1) ∧
      ∃ t, exec (.stan r p) s = .next t ∧ WritesWord s t a (s.regs.get r) ∧ SameStatus s t ∧ t.pc = s.pc + 1) ∧
    (65536 ≤ (s.regs.getMulti .double p).toNat →
      exec (.ldam r p) s = .fault .outsideLaunchMemory ∧ exec (.stan r p) s = .fault .outsideLaunchMemory)

/-- ISI and IDI bring a word and codes from the environment (log 14); OCI and ODI hand it the word in R (log 19)
(49_interrupt_io.md R485-R488; 60_exceptions.md R616; 10_state.md R28, R30, R31). -/
def Obligations.RegisterInputAndOutput : Prop :=
  ∀ (j : BitVec 2) (r : Reg) (u : Nibble) (s : State), s.psw.pv = true →
    (r = 0#4 → ∀ i ∈ [Instr.isi j r u, .idi j r u, .oci j r u, .odi j r u], exec i s = .refused .registerZero) ∧
    (r ≠ 0#4 →
      (∃ t, exec (.isi j r u) s = .next t ∧ WritesRegister s t .single r (Config.inputStatus s.draws j u).value ∧
        SameMode s.psw t.psw ∧ (⟨t.psw.n, t.psw.z, t.psw.o, t.psw.c⟩ : Codes) = (Config.inputStatus s.draws j u).codes ∧
        (s.psw.oh = true → t.psw.oh = true) ∧ s.draws < t.draws ∧ t.pc = s.pc + 1) ∧
      (∃ t, exec (.idi j r u) s = .next t ∧ WritesRegister s t .single r (Config.inputData s.draws j u) ∧
        t.psw = s.psw.withClass (classify ((Config.inputData s.draws j u).extractLsb' 0 8)) ∧ s.draws < t.draws ∧
        t.pc = s.pc + 1) ∧
      exec (.oci j r u) s = .next { s with outputs := .command j u (s.regs.get r) :: s.outputs, pc := s.pc + 1 } ∧
      exec (.odi j r u) s = .next { s with outputs := .data j u (s.regs.get r) :: s.outputs, pc := s.pc + 1 })

/-- The 34 class X rows refuse, each under its own name (the privileged ones with PV = 1) (R222-R223; R247; R293-R295;
R350; R398; R400; R404; R406; R445; R453; R455-R469, R471; R473-R476, R489). -/
def Obligations.RefusedRowsRefuse : Prop :=
  ∀ (i : Instr) (r : Refusal) (s : State), refusedRow i = some r → (isPrivileged i = true → s.psw.pv = true) →
    exec i s = .refused r
end

