-- ==== Sys2Proof/Laws/Decode.lean ====
section
/-! SUPPORT. The laws of the instruction word's fields: what each reads from a word that the encoder has joined. -/

namespace Sys2Proof

/-- The op-code byte of a joined word. -/
@[simp] theorem opByte_joinWord (o : Byte) (r q : Nibble) : opByte (joinWord o r q) = o := by
  apply BitVec.eq_of_getLsbD_eq
  intro k hk
  show ((o ++ r ++ q : BitVec (8 + 4 + 4)).extractLsb' 8 8).getLsbD k = _
  rw [BitVec.getLsbD_extractLsb', BitVec.getLsbD_append, BitVec.getLsbD_append, if_neg (by omega), if_neg (by omega)]
  simp [hk, show 8 + k - 4 - 4 = k by omega]

/-- The R nibble of a joined word. -/
@[simp] theorem rNibble_joinWord (o : Byte) (r q : Nibble) : rNibble (joinWord o r q) = r := by
  apply BitVec.eq_of_getLsbD_eq
  intro k hk
  show ((o ++ r ++ q : BitVec (8 + 4 + 4)).extractLsb' 4 4).getLsbD k = _
  rw [BitVec.getLsbD_extractLsb', BitVec.getLsbD_append, BitVec.getLsbD_append, if_neg (by omega), if_pos (by omega)]
  simp [hk]

/-- The S nibble of a joined word. -/
@[simp] theorem sNibble_joinWord (o : Byte) (r q : Nibble) : sNibble (joinWord o r q) = q := by
  apply BitVec.eq_of_getLsbD_eq
  intro k hk
  show ((o ++ r ++ q : BitVec (8 + 4 + 4)).extractLsb' 0 4).getLsbD k = _
  rw [BitVec.getLsbD_extractLsb', BitVec.getLsbD_append, if_pos (by omega)]
  simp [hk]

/-- A joined word decodes by its op-code byte and nibbles. -/
theorem decodeHead_joinWord (o : Byte) (r q : Nibble) : decodeHead (joinWord o r q) = decodeOp o r q := by
  unfold decodeHead
  rw [opByte_joinWord, rNibble_joinWord, sNibble_joinWord]
  rfl

/-- Words that begin with a joined word decode as its row reads the words after it. -/
theorem decodeWords_joinWord (o : Byte) (r q : Nibble) (ws : List Word) :
    decodeWords (joinWord o r q :: ws) = match decodeOp o r q with
      | none => .error .unimplemented
      | some shape => shape.read ws := by
  show (match decodeHead (joinWord o r q) with | none => _ | some sh => sh.read ws) = _
  rw [decodeHead_joinWord]

/-- The long memory format's S nibble is read back. -/
@[simp] theorem longOf_longNibble (m : LongAddress) : longOf (longNibble m) m.a = m := by
  obtain ⟨i, x, a⟩ := m
  have h : ∀ (i : Bool) (x : BitVec 3), (BitVec.ofBool i ++ x : BitVec 4).getLsbD 3 = i ∧
      (BitVec.ofBool i ++ x : BitVec 4).extractLsb' 0 3 = x := by decide
  show LongAddress.mk ((BitVec.ofBool i ++ x : BitVec 4).getLsbD 3) ((BitVec.ofBool i ++ x : BitVec 4).extractLsb' 0 3) a = _
  rw [(h i x).1, (h i x).2]

/-- A register number with its low bit clear is read back, whatever the sub-operation bit. -/
theorem clearLow_of_even : ∀ r : Nibble, evenNumber r = true →
    clearLow r = r ∧ clearLow (r ||| 1#4) = r ∧ (r ||| 1#4)[0] = true ∧ r[0] = false := by decide

/-- What `clearLow` answers is even. -/
theorem evenNumber_clearLow : ∀ r : Nibble, evenNumber (clearLow r) = true := by decide

/-- The hop field is read back, and so is the bit before it. -/
theorem hopField_hopHigh_hopLow : ∀ (inv : Bool) (n : BitVec 7), hopField (hopHigh inv n) (hopLow n) = n ∧
    (hopHigh inv n)[3] = inv := by decide

/-- A word is its left byte and its right byte. -/
theorem wordOfBytes_left_right (w : Word) : wordOfBytes (leftByte w) (rightByte w) = w := by
  apply BitVec.eq_of_getLsbD_eq
  intro k hk
  show (w.extractLsb' 8 8 ++ w.extractLsb' 0 8 : BitVec (8 + 8)).getLsbD k = _
  rw [BitVec.getLsbD_append]
  split <;> simp <;> intros
  · omega
  · rw [show 8 + (k - 8) = k by omega]
    simp
    omega

/-- Words laid out as bytes are read back. -/
@[simp] theorem wordsOfBytes_bytesOfWords (ws : List Word) : wordsOfBytes (bytesOfWords ws) = ws := by
  induction ws with
  | nil => rfl
  | cons w ws ih => simp [bytesOfWords, wordsOfBytes, ih, wordOfBytes_left_right]

end Sys2Proof
end

