-- ==== Sys2Proof/Laws/Memory.lean ====
section
/-! SUPPORT. The laws of memory: what a byte and a word read as after a write, and that every write keeps the canonical form. -/

namespace Sys2Proof.Machine

/-- A byte reads as it was last written. -/
theorem Memory.read_write_same (m : Memory) (a : Nat) (v : Byte) : (m.write a v).read a = some v := by
  induction m with
  | nil => simp [Memory.write, Memory.read]
  | cons c m ih =>
    unfold Memory.write
    split
    · simp [Memory.read]
    · split
      · simp [Memory.read]
      · rename_i h1 h2
        simp [Memory.read, h2, ih]

/-- A write leaves every other byte as it was. -/
theorem Memory.read_write_other (m : Memory) (a b : Nat) (v : Byte) (h : b ≠ a) : (m.write a v).read b = m.read b := by
  induction m with
  | nil => simp [Memory.write, Memory.read, h]
  | cons c m ih =>
    unfold Memory.write
    split
    · simp [Memory.read, h]
    · split
      · rename_i h1 h2
        subst h2
        simp [Memory.read, h]
      · simp [Memory.read, ih]

/-- Every address of a memory after a write is the written one or was there before. -/
theorem Memory.mem_write (m : Memory) (a : Nat) (v : Byte) (p : Host.Cell) (h : p ∈ m.write a v) : p = (a, v) ∨ p ∈ m := by
  induction m with
  | nil => simpa [Memory.write] using h
  | cons c m ih =>
    unfold Memory.write at h
    split at h
    · simpa using h
    · split at h
      · rcases List.mem_cons.mp h with h | h
        · exact .inl h
        · exact .inr (List.mem_cons_of_mem _ h)
      · rcases List.mem_cons.mp h with h | h
        · exact .inr (h ▸ List.mem_cons_self)
        · rcases ih h with h | h
          · exact .inl h
          · exact .inr (List.mem_cons_of_mem _ h)

/-- A write keeps the addresses strictly rising. -/
theorem Memory.rising_write (m : Memory) (a : Nat) (v : Byte) (h : m.Pairwise (fun p q => p.1 < q.1)) :
    (m.write a v).Pairwise (fun p q => p.1 < q.1) := by
  induction m with
  | nil => simp [Memory.write]
  | cons c m ih =>
    obtain ⟨hc, hm⟩ := List.pairwise_cons.mp h
    unfold Memory.write
    split
    · rename_i h1
      refine List.pairwise_cons.mpr ⟨fun q hq => ?_, h⟩
      rcases List.mem_cons.mp hq with rfl | hq
      · exact h1
      · exact Nat.lt_trans h1 (hc q hq)
    · split
      · rename_i h1 h2
        exact List.pairwise_cons.mpr ⟨fun q hq => by simpa [h2] using hc q hq, hm⟩
      · rename_i h1 h2
        refine List.pairwise_cons.mpr ⟨fun q hq => ?_, ih hm⟩
        rcases Memory.mem_write m a v q hq with rfl | hq
        · simp only; omega
        · exact hc q hq

/-- A write of a byte keeps the canonical form. -/
theorem Memory.wf_write (m : Memory) (a : Nat) (v : Byte) (h : m.wf) (ha : a < 131072) : (m.write a v).wf := by
  refine ⟨Memory.rising_write m a v h.1, fun p hp => ?_⟩
  rcases Memory.mem_write m a v p hp with rfl | hp
  · exact ha
  · exact h.2 p hp

/-- A write of a word keeps the canonical form. -/
theorem Memory.wf_writeWord (m : Memory) (a v : Word) (h : m.wf) : (m.writeWord a v).wf := by
  have := a.isLt
  exact Memory.wf_write _ _ _ (Memory.wf_write _ _ _ h (by omega)) (by omega)

/-- A write of consecutive words keeps the canonical form. -/
theorem Memory.wf_writeWords (m : Memory) (a : Word) (vs : List Word) (h : m.wf) : (m.writeWords a vs).wf := by
  induction vs generalizing m a with
  | nil => exact h
  | cons v vs ih => exact ih _ _ (Memory.wf_writeWord m a v h)

/-- A word reads as it was last written. -/
theorem Memory.readWord_writeWord_same (m : Memory) (a v : Word) : (m.writeWord a v).readWord a = some v := by
  have h : (m.writeWord a v).read (2 * a.toNat) = some (v.extractLsb' 8 8) := by
    unfold Memory.writeWord
    rw [Memory.read_write_other _ _ _ _ (by omega), Memory.read_write_same]
  have h' : (m.writeWord a v).read (2 * a.toNat + 1) = some (v.extractLsb' 0 8) := Memory.read_write_same _ _ _
  have hv : v.extractLsb' 8 8 ++ v.extractLsb' 0 8 = v := by
    apply BitVec.eq_of_getLsbD_eq
    intro i hi
    rw [BitVec.getLsbD_append]
    split
    · rename_i h8
      simp [h8]
    · rename_i h8
      simp only [BitVec.getLsbD_extractLsb']
      rw [show 8 + (i - 8) = i by omega]
      simp
      omega
  simp [Memory.readWord, h, h', hv]

/-- A write of a word leaves every byte outside it as it was. -/
theorem Memory.read_writeWord_outside (m : Memory) (a v : Word) (b : Nat) (h : b ≠ 2 * a.toNat) (h' : b ≠ 2 * a.toNat + 1) :
    (m.writeWord a v).read b = m.read b := by
  unfold Memory.writeWord
  rw [Memory.read_write_other _ _ _ _ h', Memory.read_write_other _ _ _ _ h]

/-- A write of a word leaves every other word as it was. -/
theorem Memory.readWord_writeWord_other (m : Memory) (a b v : Word) (h : b ≠ a) :
    (m.writeWord a v).readWord b = m.readWord b := by
  have h' : b.toNat ≠ a.toNat := fun e => h (BitVec.eq_of_toNat_eq e)
  unfold Memory.readWord
  rw [Memory.read_writeWord_outside _ _ _ _ (by omega) (by omega), Memory.read_writeWord_outside _ _ _ _ (by omega) (by omega)]

/-- A write of consecutive words leaves every byte outside them as it was. -/
theorem Memory.read_writeWords_outside (m : Memory) (a : Word) (vs : List Word) (b : Nat)
    (h : ∀ k < vs.length, b ≠ 2 * (a + BitVec.ofNat 16 k).toNat ∧ b ≠ 2 * (a + BitVec.ofNat 16 k).toNat + 1) :
    (m.writeWords a vs).read b = m.read b := by
  induction vs generalizing m a with
  | nil => rfl
  | cons v vs ih =>
    have h0 := h 0 (by simp)
    rw [Memory.writeWords, ih, Memory.read_writeWord_outside]
    · simpa using h0.1
    · simpa using h0.2
    · intro k hk
      have := h (k + 1) (by simpa using hk)
      have e : a + 1 + BitVec.ofNat 16 k = a + BitVec.ofNat 16 (k + 1) := by
        rw [Nat.add_comm k 1, BitVec.ofNat_add, ← BitVec.add_assoc]
        rfl
      rw [e]
      exact this

end Sys2Proof.Machine
end

