-- ==== Sys2Proof/Laws/Registers.lean ====
section
/-! SUPPORT. The laws of the register file: what a register reads as after a write, for single registers and multiples. -/

namespace Sys2Proof.Machine

/-- A register number is one of the sixteen. -/
theorem Reg.cases (r : Reg) : r = 0#4 ∨ r = 1#4 ∨ r = 2#4 ∨ r = 3#4 ∨ r = 4#4 ∨ r = 5#4 ∨ r = 6#4 ∨ r = 7#4 ∨ r = 8#4
    ∨ r = 9#4 ∨ r = 10#4 ∨ r = 11#4 ∨ r = 12#4 ∨ r = 13#4 ∨ r = 14#4 ∨ r = 15#4 := by
  revert r; decide

/-- There is no register 0: it reads as no register's content and a write to it is none (R21). -/
@[simp] theorem Regs.set_zero (g : Regs) (v : Word) : g.set 0#4 v = g := rfl

/-- A register reads as it was last written. -/
theorem Regs.get_set_same (g : Regs) (r : Reg) (v : Word) (h : r ≠ 0#4) : (g.set r v).get r = v := by
  rcases Reg.cases r with e | e | e | e | e | e | e | e | e | e | e | e | e | e | e | e <;> subst e <;>
    first | exact absurd rfl h | rfl

/-- A write of a register leaves every other one as it was. -/
theorem Regs.get_set_other (g : Regs) (r q : Reg) (v : Word) (h : q ≠ r) : (g.set r v).get q = g.get q := by
  rcases Reg.cases r with e | e | e | e | e | e | e | e | e | e | e | e | e | e | e | e <;> subst e <;>
    rcases Reg.cases q with e | e | e | e | e | e | e | e | e | e | e | e | e | e | e | e <;> subst e <;>
      first | exact absurd rfl h | rfl

/-- Fifteen registers with the same contents are the same registers. -/
theorem Regs.ext_get (g g' : Regs) (h : ∀ r : Reg, r ≠ 0#4 → g'.get r = g.get r) : g' = g := by
  cases g; cases g'
  have a1 := h 1#4 (by decide); have a2 := h 2#4 (by decide); have a3 := h 3#4 (by decide)
  have a4 := h 4#4 (by decide); have a5 := h 5#4 (by decide); have a6 := h 6#4 (by decide)
  have a7 := h 7#4 (by decide); have a8 := h 8#4 (by decide); have a9 := h 9#4 (by decide)
  have a10 := h 10#4 (by decide); have a11 := h 11#4 (by decide); have a12 := h 12#4 (by decide)
  have a13 := h 13#4 (by decide); have a14 := h 14#4 (by decide); have a15 := h 15#4 (by decide)
  simp only [Regs.get] at a1 a2 a3 a4 a5 a6 a7 a8 a9 a10 a11 a12 a13 a14 a15
  simp_all

/-! ### Multiples -/

/-- Two words of a double word, put together, are the double word (R22). -/
theorem append_words_double (v : BitVec 32) : v.extractLsb' 16 16 ++ v.extractLsb' 0 16 = v := by
  apply BitVec.eq_of_getLsbD_eq
  intro i hi
  simp only [BitVec.getLsbD_append, BitVec.getLsbD_extractLsb']
  split
  · rename_i h; simp [h]
  · rename_i h; rw [show 16 + (i - 16) = i by omega]; simp; omega

/-- Three words of a triple word, put together, are the triple word (R22). -/
theorem append_words_triple (v : BitVec 48) : v.extractLsb' 32 16 ++ v.extractLsb' 16 16 ++ v.extractLsb' 0 16 = v := by
  apply BitVec.eq_of_getLsbD_eq
  intro i hi
  simp only [BitVec.getLsbD_append, BitVec.getLsbD_extractLsb']
  split
  · rename_i h; simp [h]
  · split
    · rename_i h h'; rw [show 16 + (i - 16) = i by omega]; simp; omega
    · rename_i h h'; rw [show 32 + (i - 16 - 16) = i by omega]; simp; omega

/-- Four words of a quadruple word, put together, are the quadruple word (R22). -/
theorem append_words_quad (v : BitVec 64) :
    v.extractLsb' 48 16 ++ v.extractLsb' 32 16 ++ v.extractLsb' 16 16 ++ v.extractLsb' 0 16 = v := by
  apply BitVec.eq_of_getLsbD_eq
  intro i hi
  simp only [BitVec.getLsbD_append, BitVec.getLsbD_extractLsb']
  split
  · rename_i h; simp [h]
  · split
    · rename_i h h'; rw [show 16 + (i - 16) = i by omega]; simp; omega
    · split
      · rename_i h h' h''; rw [show 32 + (i - 16 - 16) = i by omega]; simp; omega
      · rename_i h h' h''; rw [show 48 + (i - 16 - 16 - 16) = i by omega]; simp; omega

/-- The registers of a double operand are two different ones, neither of them 0 (R22). -/
theorem admits_double {r : Reg} (h : Width.admits .double r = true) : r ≠ 0#4 ∧ r + 1 ≠ 0#4 ∧ r ≠ r + 1 := by
  revert r; decide

/-- The registers of a triple or quadruple operand are different ones, none of them 0 (R22). -/
theorem admits_quad {r : Reg} (h : Width.admits .quad r = true) : r ≠ 0#4 ∧ r + 1 ≠ 0#4 ∧ r + 2 ≠ 0#4 ∧ r + 3 ≠ 0#4 ∧ r ≠ r + 1
    ∧ r ≠ r + 2 ∧ r ≠ r + 3 ∧ r + 1 ≠ r + 2 ∧ r + 1 ≠ r + 3 ∧ r + 2 ≠ r + 3 := by
  revert r; decide

/-- A register multiple reads as it was last written (R22). -/
theorem Regs.getMulti_setMulti (g : Regs) (k : Width) (r : Reg) (v : BitVec k.bits) (h : k.admits r = true) :
    (g.setMulti k r v).getMulti k r = v := by
  cases k with
  | single => exact Regs.get_set_same g r v (by simpa [Width.admits] using h)
  | double =>
    obtain ⟨h0, h1, h2⟩ := admits_double h
    simp only [Regs.setMulti, Regs.getMulti, Regs.get_set_same _ _ _ h1, Regs.get_set_other _ _ _ _ h2,
      Regs.get_set_same _ _ _ h0]
    exact append_words_double v
  | triple =>
    obtain ⟨h0, h1, h2, h3, a, b, c, d, e, f⟩ := admits_quad h
    simp only [Regs.setMulti, Regs.getMulti, Regs.get_set_same _ _ _ h2, Regs.get_set_other _ _ _ _ b,
      Regs.get_set_other _ _ _ _ a, Regs.get_set_other _ _ _ _ d, Regs.get_set_same _ _ _ h0, Regs.get_set_same _ _ _ h1]
    exact append_words_triple v
  | quad =>
    obtain ⟨h0, h1, h2, h3, a, b, c, d, e, f⟩ := admits_quad h
    simp only [Regs.setMulti, Regs.getMulti, Regs.get_set_same _ _ _ h3, Regs.get_set_other _ _ _ _ c,
      Regs.get_set_other _ _ _ _ b, Regs.get_set_other _ _ _ _ a, Regs.get_set_other _ _ _ _ d, Regs.get_set_other _ _ _ _ e,
      Regs.get_set_other _ _ _ _ f, Regs.get_set_same _ _ _ h0, Regs.get_set_same _ _ _ h1, Regs.get_set_same _ _ _ h2]
    exact append_words_quad v

/-- How many registers lie between two, counted modulo 16: enough to tell them apart. -/
theorem ne_add_of_far {q r : Reg} {n : Nat} (k : Nat) (hk : k < n) (hn : n ≤ 16) (h : n ≤ (q - r).toNat) :
    q ≠ r + BitVec.ofNat 4 k := by
  rintro rfl
  have e : r + BitVec.ofNat 4 k - r = BitVec.ofNat 4 k := by
    rw [BitVec.add_comm]; exact BitVec.add_sub_cancel _ _
  rw [e, BitVec.toNat_ofNat] at h
  omega

/-- A write of a register multiple leaves every register outside it as it was (R22). -/
theorem Regs.get_setMulti_outside (g : Regs) (k : Width) (r q : Reg) (v : BitVec k.bits)
    (h : k.words ≤ (q - r).toNat) :
    (g.setMulti k r v).get q = g.get q := by
  have e0 : r + BitVec.ofNat 4 0 = r := by simp
  cases k with
  | single => exact Regs.get_set_other _ _ _ _ (e0 ▸ ne_add_of_far (n := 1) 0 (by omega) (by omega) h)
  | double =>
    have n0 := e0 ▸ ne_add_of_far (n := 2) 0 (by omega) (by omega) h
    have n1 : q ≠ r + 1 := ne_add_of_far (n := 2) 1 (by omega) (by omega) h
    simp only [Regs.setMulti, Regs.get_set_other _ _ _ _ n0, Regs.get_set_other _ _ _ _ n1]
  | triple =>
    have n0 := e0 ▸ ne_add_of_far (n := 3) 0 (by omega) (by omega) h
    have n1 : q ≠ r + 1 := ne_add_of_far (n := 3) 1 (by omega) (by omega) h
    have n2 : q ≠ r + 2 := ne_add_of_far (n := 3) 2 (by omega) (by omega) h
    simp only [Regs.setMulti, Regs.get_set_other _ _ _ _ n0, Regs.get_set_other _ _ _ _ n1, Regs.get_set_other _ _ _ _ n2]
  | quad =>
    have n0 := e0 ▸ ne_add_of_far (n := 4) 0 (by omega) (by omega) h
    have n1 : q ≠ r + 1 := ne_add_of_far (n := 4) 1 (by omega) (by omega) h
    have n2 : q ≠ r + 2 := ne_add_of_far (n := 4) 2 (by omega) (by omega) h
    have n3 : q ≠ r + 3 := ne_add_of_far (n := 4) 3 (by omega) (by omega) h
    simp only [Regs.setMulti, Regs.get_set_other _ _ _ _ n0, Regs.get_set_other _ _ _ _ n1, Regs.get_set_other _ _ _ _ n2,
      Regs.get_set_other _ _ _ _ n3]

end Sys2Proof.Machine
end

