-- ==== Sys2Proof/Laws/State.lean ====
section
/-! SUPPORT. One lemma per field per update of the state, so that no later proof unfolds a record update. -/

namespace Sys2Proof.Machine

/-! ### State.setReg -/

@[simp] theorem State.setReg_regs (s : State) (k : Width) (r : Reg) (v : BitVec k.bits) : (s.setReg k r v).regs = s.regs.setMulti k r v := rfl
@[simp] theorem State.setReg_pc (s : State) (k : Width) (r : Reg) (v : BitVec k.bits) : (s.setReg k r v).pc = s.pc := rfl
@[simp] theorem State.setReg_psw (s : State) (k : Width) (r : Reg) (v : BitVec k.bits) : (s.setReg k r v).psw = s.psw := rfl
@[simp] theorem State.setReg_ie (s : State) (k : Width) (r : Reg) (v : BitVec k.bits) : (s.setReg k r v).ie = s.ie := rfl
@[simp] theorem State.setReg_ia (s : State) (k : Width) (r : Reg) (v : BitVec k.bits) : (s.setReg k r v).ia = s.ia := rfl
@[simp] theorem State.setReg_ir (s : State) (k : Width) (r : Reg) (v : BitVec k.bits) : (s.setReg k r v).ir = s.ir := rfl
@[simp] theorem State.setReg_run (s : State) (k : Width) (r : Reg) (v : BitVec k.bits) : (s.setReg k r v).run = s.run := rfl
@[simp] theorem State.setReg_mem (s : State) (k : Width) (r : Reg) (v : BitVec k.bits) : (s.setReg k r v).mem = s.mem := rfl
@[simp] theorem State.setReg_launch (s : State) (k : Width) (r : Reg) (v : BitVec k.bits) : (s.setReg k r v).launch = s.launch := rfl
@[simp] theorem State.setReg_draws (s : State) (k : Width) (r : Reg) (v : BitVec k.bits) : (s.setReg k r v).draws = s.draws := rfl
@[simp] theorem State.setReg_pending (s : State) (k : Width) (r : Reg) (v : BitVec k.bits) : (s.setReg k r v).pending = s.pending := rfl
@[simp] theorem State.setReg_envRequests (s : State) (k : Width) (r : Reg) (v : BitVec k.bits) : (s.setReg k r v).envRequests = s.envRequests := rfl
@[simp] theorem State.setReg_outputs (s : State) (k : Width) (r : Reg) (v : BitVec k.bits) : (s.setReg k r v).outputs = s.outputs := rfl

/-! ### State.drew -/

@[simp] theorem State.drew_regs (s : State) : (s.drew).regs = s.regs := rfl
@[simp] theorem State.drew_pc (s : State) : (s.drew).pc = s.pc := rfl
@[simp] theorem State.drew_psw (s : State) : (s.drew).psw = s.psw := rfl
@[simp] theorem State.drew_ie (s : State) : (s.drew).ie = s.ie := rfl
@[simp] theorem State.drew_ia (s : State) : (s.drew).ia = s.ia := rfl
@[simp] theorem State.drew_ir (s : State) : (s.drew).ir = s.ir := rfl
@[simp] theorem State.drew_run (s : State) : (s.drew).run = s.run := rfl
@[simp] theorem State.drew_mem (s : State) : (s.drew).mem = s.mem := rfl
@[simp] theorem State.drew_launch (s : State) : (s.drew).launch = s.launch := rfl
@[simp] theorem State.drew_draws (s : State) : (s.drew).draws = s.draws + 8 := rfl
@[simp] theorem State.drew_pending (s : State) : (s.drew).pending = s.pending := rfl
@[simp] theorem State.drew_envRequests (s : State) : (s.drew).envRequests = s.envRequests := rfl
@[simp] theorem State.drew_outputs (s : State) : (s.drew).outputs = s.outputs := rfl

/-! ### State.finish -/

@[simp] theorem State.finish_regs (s : State) (nx : Next) (b : Bool) : (s.finish nx b).regs = s.regs := rfl
@[simp] theorem State.finish_pc (s : State) (nx : Next) (b : Bool) : (s.finish nx b).pc = nx.target s.pc b s.psw := rfl
@[simp] theorem State.finish_psw (s : State) (nx : Next) (b : Bool) : (s.finish nx b).psw = s.psw := rfl
@[simp] theorem State.finish_ie (s : State) (nx : Next) (b : Bool) : (s.finish nx b).ie = s.ie := rfl
@[simp] theorem State.finish_ia (s : State) (nx : Next) (b : Bool) : (s.finish nx b).ia = s.ia := rfl
@[simp] theorem State.finish_ir (s : State) (nx : Next) (b : Bool) : (s.finish nx b).ir = s.ir := rfl
@[simp] theorem State.finish_run (s : State) (nx : Next) (b : Bool) : (s.finish nx b).run = s.run := rfl
@[simp] theorem State.finish_mem (s : State) (nx : Next) (b : Bool) : (s.finish nx b).mem = s.mem := rfl
@[simp] theorem State.finish_launch (s : State) (nx : Next) (b : Bool) : (s.finish nx b).launch = s.launch := rfl
@[simp] theorem State.finish_draws (s : State) (nx : Next) (b : Bool) : (s.finish nx b).draws = s.draws := rfl
@[simp] theorem State.finish_pending (s : State) (nx : Next) (b : Bool) : (s.finish nx b).pending = s.pending := rfl
@[simp] theorem State.finish_envRequests (s : State) (nx : Next) (b : Bool) : (s.finish nx b).envRequests = s.envRequests := rfl
@[simp] theorem State.finish_outputs (s : State) (nx : Next) (b : Bool) : (s.finish nx b).outputs = s.outputs := rfl

/-! ### State.advance -/

@[simp] theorem State.advance_regs (s : State) (n : Nat) : (s.advance n).regs = s.regs := rfl
@[simp] theorem State.advance_pc (s : State) (n : Nat) : (s.advance n).pc = s.pc + BitVec.ofNat 16 n := rfl
@[simp] theorem State.advance_psw (s : State) (n : Nat) : (s.advance n).psw = s.psw := rfl
@[simp] theorem State.advance_ie (s : State) (n : Nat) : (s.advance n).ie = s.ie := rfl
@[simp] theorem State.advance_ia (s : State) (n : Nat) : (s.advance n).ia = s.ia := rfl
@[simp] theorem State.advance_ir (s : State) (n : Nat) : (s.advance n).ir = s.ir := rfl
@[simp] theorem State.advance_run (s : State) (n : Nat) : (s.advance n).run = s.run := rfl
@[simp] theorem State.advance_mem (s : State) (n : Nat) : (s.advance n).mem = s.mem := rfl
@[simp] theorem State.advance_launch (s : State) (n : Nat) : (s.advance n).launch = s.launch := rfl
@[simp] theorem State.advance_draws (s : State) (n : Nat) : (s.advance n).draws = s.draws := rfl
@[simp] theorem State.advance_pending (s : State) (n : Nat) : (s.advance n).pending = s.pending := rfl
@[simp] theorem State.advance_envRequests (s : State) (n : Nat) : (s.advance n).envRequests = s.envRequests := rfl
@[simp] theorem State.advance_outputs (s : State) (n : Nat) : (s.advance n).outputs = s.outputs := rfl

/-! ### State.emit -/

@[simp] theorem State.emit_regs (s : State) (e : OutputEvent) : (s.emit e).regs = s.regs := rfl
@[simp] theorem State.emit_pc (s : State) (e : OutputEvent) : (s.emit e).pc = s.pc := rfl
@[simp] theorem State.emit_psw (s : State) (e : OutputEvent) : (s.emit e).psw = s.psw := rfl
@[simp] theorem State.emit_ie (s : State) (e : OutputEvent) : (s.emit e).ie = s.ie := rfl
@[simp] theorem State.emit_ia (s : State) (e : OutputEvent) : (s.emit e).ia = s.ia := rfl
@[simp] theorem State.emit_ir (s : State) (e : OutputEvent) : (s.emit e).ir = s.ir := rfl
@[simp] theorem State.emit_run (s : State) (e : OutputEvent) : (s.emit e).run = s.run := rfl
@[simp] theorem State.emit_mem (s : State) (e : OutputEvent) : (s.emit e).mem = s.mem := rfl
@[simp] theorem State.emit_launch (s : State) (e : OutputEvent) : (s.emit e).launch = s.launch := rfl
@[simp] theorem State.emit_draws (s : State) (e : OutputEvent) : (s.emit e).draws = s.draws := rfl
@[simp] theorem State.emit_pending (s : State) (e : OutputEvent) : (s.emit e).pending = s.pending := rfl
@[simp] theorem State.emit_envRequests (s : State) (e : OutputEvent) : (s.emit e).envRequests = s.envRequests := rfl
@[simp] theorem State.emit_outputs (s : State) (e : OutputEvent) : (s.emit e).outputs = e :: s.outputs := rfl

/-! ### State.setCodes -/

@[simp] theorem State.setCodes_regs (s : State) (k : Codes) : (s.setCodes k).regs = s.regs := rfl
@[simp] theorem State.setCodes_pc (s : State) (k : Codes) : (s.setCodes k).pc = s.pc := rfl
@[simp] theorem State.setCodes_psw (s : State) (k : Codes) : (s.setCodes k).psw = { s.psw with n := k.n, z := k.z, o := k.o, c := k.c } := rfl
@[simp] theorem State.setCodes_ie (s : State) (k : Codes) : (s.setCodes k).ie = s.ie := rfl
@[simp] theorem State.setCodes_ia (s : State) (k : Codes) : (s.setCodes k).ia = s.ia := rfl
@[simp] theorem State.setCodes_ir (s : State) (k : Codes) : (s.setCodes k).ir = s.ir := rfl
@[simp] theorem State.setCodes_run (s : State) (k : Codes) : (s.setCodes k).run = s.run := rfl
@[simp] theorem State.setCodes_mem (s : State) (k : Codes) : (s.setCodes k).mem = s.mem := rfl
@[simp] theorem State.setCodes_launch (s : State) (k : Codes) : (s.setCodes k).launch = s.launch := rfl
@[simp] theorem State.setCodes_draws (s : State) (k : Codes) : (s.setCodes k).draws = s.draws := rfl
@[simp] theorem State.setCodes_pending (s : State) (k : Codes) : (s.setCodes k).pending = s.pending := rfl
@[simp] theorem State.setCodes_envRequests (s : State) (k : Codes) : (s.setCodes k).envRequests = s.envRequests := rfl
@[simp] theorem State.setCodes_outputs (s : State) (k : Codes) : (s.setCodes k).outputs = s.outputs := rfl

/-! ### State.setZN -/

@[simp] theorem State.setZN_regs {w : Nat} (s : State) (r : BitVec w) : (s.setZN r).regs = s.regs := rfl
@[simp] theorem State.setZN_pc {w : Nat} (s : State) (r : BitVec w) : (s.setZN r).pc = s.pc := rfl
@[simp] theorem State.setZN_psw {w : Nat} (s : State) (r : BitVec w) : (s.setZN r).psw = { s.psw with n := r.msb, z := r == 0#w } := rfl
@[simp] theorem State.setZN_ie {w : Nat} (s : State) (r : BitVec w) : (s.setZN r).ie = s.ie := rfl
@[simp] theorem State.setZN_ia {w : Nat} (s : State) (r : BitVec w) : (s.setZN r).ia = s.ia := rfl
@[simp] theorem State.setZN_ir {w : Nat} (s : State) (r : BitVec w) : (s.setZN r).ir = s.ir := rfl
@[simp] theorem State.setZN_run {w : Nat} (s : State) (r : BitVec w) : (s.setZN r).run = s.run := rfl
@[simp] theorem State.setZN_mem {w : Nat} (s : State) (r : BitVec w) : (s.setZN r).mem = s.mem := rfl
@[simp] theorem State.setZN_launch {w : Nat} (s : State) (r : BitVec w) : (s.setZN r).launch = s.launch := rfl
@[simp] theorem State.setZN_draws {w : Nat} (s : State) (r : BitVec w) : (s.setZN r).draws = s.draws := rfl
@[simp] theorem State.setZN_pending {w : Nat} (s : State) (r : BitVec w) : (s.setZN r).pending = s.pending := rfl
@[simp] theorem State.setZN_envRequests {w : Nat} (s : State) (r : BitVec w) : (s.setZN r).envRequests = s.envRequests := rfl
@[simp] theorem State.setZN_outputs {w : Nat} (s : State) (r : BitVec w) : (s.setZN r).outputs = s.outputs := rfl

/-! ### State.setSum -/

@[simp] theorem State.setSum_regs {w : Nat} (s : State) (x : Sum w) : (s.setSum x).regs = s.regs := rfl
@[simp] theorem State.setSum_pc {w : Nat} (s : State) (x : Sum w) : (s.setSum x).pc = s.pc := rfl
@[simp] theorem State.setSum_psw {w : Nat} (s : State) (x : Sum w) : (s.setSum x).psw = 
    { s.psw with n := x.result.msb, z := x.result == 0#w, o := x.overflow, c := x.carry, oh := s.psw.oh || x.overflow } := rfl
@[simp] theorem State.setSum_ie {w : Nat} (s : State) (x : Sum w) : (s.setSum x).ie = s.ie := rfl
@[simp] theorem State.setSum_ia {w : Nat} (s : State) (x : Sum w) : (s.setSum x).ia = s.ia := rfl
@[simp] theorem State.setSum_ir {w : Nat} (s : State) (x : Sum w) : (s.setSum x).ir = s.ir := rfl
@[simp] theorem State.setSum_run {w : Nat} (s : State) (x : Sum w) : (s.setSum x).run = s.run := rfl
@[simp] theorem State.setSum_mem {w : Nat} (s : State) (x : Sum w) : (s.setSum x).mem = s.mem := rfl
@[simp] theorem State.setSum_launch {w : Nat} (s : State) (x : Sum w) : (s.setSum x).launch = s.launch := rfl
@[simp] theorem State.setSum_draws {w : Nat} (s : State) (x : Sum w) : (s.setSum x).draws = s.draws := rfl
@[simp] theorem State.setSum_pending {w : Nat} (s : State) (x : Sum w) : (s.setSum x).pending = s.pending := rfl
@[simp] theorem State.setSum_envRequests {w : Nat} (s : State) (x : Sum w) : (s.setSum x).envRequests = s.envRequests := rfl
@[simp] theorem State.setSum_outputs {w : Nat} (s : State) (x : Sum w) : (s.setSum x).outputs = s.outputs := rfl

/-! ### State.setZNO -/

@[simp] theorem State.setZNO_regs {w : Nat} (s : State) (x : Sum w) : (s.setZNO x).regs = s.regs := rfl
@[simp] theorem State.setZNO_pc {w : Nat} (s : State) (x : Sum w) : (s.setZNO x).pc = s.pc := rfl
@[simp] theorem State.setZNO_psw {w : Nat} (s : State) (x : Sum w) : (s.setZNO x).psw = 
    { s.psw with n := x.result.msb, z := x.result == 0#w, o := x.overflow, oh := s.psw.oh || x.overflow } := rfl
@[simp] theorem State.setZNO_ie {w : Nat} (s : State) (x : Sum w) : (s.setZNO x).ie = s.ie := rfl
@[simp] theorem State.setZNO_ia {w : Nat} (s : State) (x : Sum w) : (s.setZNO x).ia = s.ia := rfl
@[simp] theorem State.setZNO_ir {w : Nat} (s : State) (x : Sum w) : (s.setZNO x).ir = s.ir := rfl
@[simp] theorem State.setZNO_run {w : Nat} (s : State) (x : Sum w) : (s.setZNO x).run = s.run := rfl
@[simp] theorem State.setZNO_mem {w : Nat} (s : State) (x : Sum w) : (s.setZNO x).mem = s.mem := rfl
@[simp] theorem State.setZNO_launch {w : Nat} (s : State) (x : Sum w) : (s.setZNO x).launch = s.launch := rfl
@[simp] theorem State.setZNO_draws {w : Nat} (s : State) (x : Sum w) : (s.setZNO x).draws = s.draws := rfl
@[simp] theorem State.setZNO_pending {w : Nat} (s : State) (x : Sum w) : (s.setZNO x).pending = s.pending := rfl
@[simp] theorem State.setZNO_envRequests {w : Nat} (s : State) (x : Sum w) : (s.setZNO x).envRequests = s.envRequests := rfl
@[simp] theorem State.setZNO_outputs {w : Nat} (s : State) (x : Sum w) : (s.setZNO x).outputs = s.outputs := rfl

/-! ### State.setZNDrawn -/

@[simp] theorem State.setZNDrawn_regs {w : Nat} (s : State) (r : BitVec w) : (s.setZNDrawn r).regs = s.regs := rfl
@[simp] theorem State.setZNDrawn_pc {w : Nat} (s : State) (r : BitVec w) : (s.setZNDrawn r).pc = s.pc := rfl
@[simp] theorem State.setZNDrawn_psw {w : Nat} (s : State) (r : BitVec w) : (s.setZNDrawn r).psw = 
    { s.psw with n := r.msb, z := r == 0#w, o := s.drawnBit 0, c := s.drawnBit 1, oh := s.psw.oh || s.drawnBit 2 } := rfl
@[simp] theorem State.setZNDrawn_ie {w : Nat} (s : State) (r : BitVec w) : (s.setZNDrawn r).ie = s.ie := rfl
@[simp] theorem State.setZNDrawn_ia {w : Nat} (s : State) (r : BitVec w) : (s.setZNDrawn r).ia = s.ia := rfl
@[simp] theorem State.setZNDrawn_ir {w : Nat} (s : State) (r : BitVec w) : (s.setZNDrawn r).ir = s.ir := rfl
@[simp] theorem State.setZNDrawn_run {w : Nat} (s : State) (r : BitVec w) : (s.setZNDrawn r).run = s.run := rfl
@[simp] theorem State.setZNDrawn_mem {w : Nat} (s : State) (r : BitVec w) : (s.setZNDrawn r).mem = s.mem := rfl
@[simp] theorem State.setZNDrawn_launch {w : Nat} (s : State) (r : BitVec w) : (s.setZNDrawn r).launch = s.launch := rfl
@[simp] theorem State.setZNDrawn_draws {w : Nat} (s : State) (r : BitVec w) : (s.setZNDrawn r).draws = s.draws + 8 := rfl
@[simp] theorem State.setZNDrawn_pending {w : Nat} (s : State) (r : BitVec w) : (s.setZNDrawn r).pending = s.pending := rfl
@[simp] theorem State.setZNDrawn_envRequests {w : Nat} (s : State) (r : BitVec w) : (s.setZNDrawn r).envRequests = s.envRequests := rfl
@[simp] theorem State.setZNDrawn_outputs {w : Nat} (s : State) (r : BitVec w) : (s.setZNDrawn r).outputs = s.outputs := rfl

/-! ### State.setTested -/

@[simp] theorem State.setTested_regs {w : Nat} (s : State) (r : BitVec w) : (s.setTested r).regs = s.regs := rfl
@[simp] theorem State.setTested_pc {w : Nat} (s : State) (r : BitVec w) : (s.setTested r).pc = s.pc := rfl
@[simp] theorem State.setTested_psw {w : Nat} (s : State) (r : BitVec w) : (s.setTested r).psw = 
    { s.psw with n := s.drawnBit 3, z := r == 0#w, o := s.drawnBit 0, c := s.drawnBit 1, oh := s.psw.oh || s.drawnBit 2 } := rfl
@[simp] theorem State.setTested_ie {w : Nat} (s : State) (r : BitVec w) : (s.setTested r).ie = s.ie := rfl
@[simp] theorem State.setTested_ia {w : Nat} (s : State) (r : BitVec w) : (s.setTested r).ia = s.ia := rfl
@[simp] theorem State.setTested_ir {w : Nat} (s : State) (r : BitVec w) : (s.setTested r).ir = s.ir := rfl
@[simp] theorem State.setTested_run {w : Nat} (s : State) (r : BitVec w) : (s.setTested r).run = s.run := rfl
@[simp] theorem State.setTested_mem {w : Nat} (s : State) (r : BitVec w) : (s.setTested r).mem = s.mem := rfl
@[simp] theorem State.setTested_launch {w : Nat} (s : State) (r : BitVec w) : (s.setTested r).launch = s.launch := rfl
@[simp] theorem State.setTested_draws {w : Nat} (s : State) (r : BitVec w) : (s.setTested r).draws = s.draws + 8 := rfl
@[simp] theorem State.setTested_pending {w : Nat} (s : State) (r : BitVec w) : (s.setTested r).pending = s.pending := rfl
@[simp] theorem State.setTested_envRequests {w : Nat} (s : State) (r : BitVec w) : (s.setTested r).envRequests = s.envRequests := rfl
@[simp] theorem State.setTested_outputs {w : Nat} (s : State) (r : BitVec w) : (s.setTested r).outputs = s.outputs := rfl

/-! ### State.setAllDrawn -/

@[simp] theorem State.setAllDrawn_regs (s : State) : (s.setAllDrawn).regs = s.regs := rfl
@[simp] theorem State.setAllDrawn_pc (s : State) : (s.setAllDrawn).pc = s.pc := rfl
@[simp] theorem State.setAllDrawn_psw (s : State) : (s.setAllDrawn).psw = 
    { s.psw with n := s.drawnBit 3, z := s.drawnBit 4, o := s.drawnBit 0, c := s.drawnBit 1, oh := s.psw.oh || s.drawnBit 2 } := rfl
@[simp] theorem State.setAllDrawn_ie (s : State) : (s.setAllDrawn).ie = s.ie := rfl
@[simp] theorem State.setAllDrawn_ia (s : State) : (s.setAllDrawn).ia = s.ia := rfl
@[simp] theorem State.setAllDrawn_ir (s : State) : (s.setAllDrawn).ir = s.ir := rfl
@[simp] theorem State.setAllDrawn_run (s : State) : (s.setAllDrawn).run = s.run := rfl
@[simp] theorem State.setAllDrawn_mem (s : State) : (s.setAllDrawn).mem = s.mem := rfl
@[simp] theorem State.setAllDrawn_launch (s : State) : (s.setAllDrawn).launch = s.launch := rfl
@[simp] theorem State.setAllDrawn_draws (s : State) : (s.setAllDrawn).draws = s.draws + 8 := rfl
@[simp] theorem State.setAllDrawn_pending (s : State) : (s.setAllDrawn).pending = s.pending := rfl
@[simp] theorem State.setAllDrawn_envRequests (s : State) : (s.setAllDrawn).envRequests = s.envRequests := rfl
@[simp] theorem State.setAllDrawn_outputs (s : State) : (s.setAllDrawn).outputs = s.outputs := rfl

/-! ### State.setReported -/

@[simp] theorem State.setReported_regs (s : State) (k : Codes) : (s.setReported k).regs = s.regs := rfl
@[simp] theorem State.setReported_pc (s : State) (k : Codes) : (s.setReported k).pc = s.pc := rfl
@[simp] theorem State.setReported_psw (s : State) (k : Codes) : (s.setReported k).psw = 
    { s.psw with n := k.n, z := k.z, o := k.o, c := k.c, oh := s.psw.oh || s.drawnBit 2 } := rfl
@[simp] theorem State.setReported_ie (s : State) (k : Codes) : (s.setReported k).ie = s.ie := rfl
@[simp] theorem State.setReported_ia (s : State) (k : Codes) : (s.setReported k).ia = s.ia := rfl
@[simp] theorem State.setReported_ir (s : State) (k : Codes) : (s.setReported k).ir = s.ir := rfl
@[simp] theorem State.setReported_run (s : State) (k : Codes) : (s.setReported k).run = s.run := rfl
@[simp] theorem State.setReported_mem (s : State) (k : Codes) : (s.setReported k).mem = s.mem := rfl
@[simp] theorem State.setReported_launch (s : State) (k : Codes) : (s.setReported k).launch = s.launch := rfl
@[simp] theorem State.setReported_draws (s : State) (k : Codes) : (s.setReported k).draws = s.draws + 8 := rfl
@[simp] theorem State.setReported_pending (s : State) (k : Codes) : (s.setReported k).pending = s.pending := rfl
@[simp] theorem State.setReported_envRequests (s : State) (k : Codes) : (s.setReported k).envRequests = s.envRequests := rfl
@[simp] theorem State.setReported_outputs (s : State) (k : Codes) : (s.setReported k).outputs = s.outputs := rfl

/-! ### State.setQuotient -/

@[simp] theorem State.setQuotient_regs (s : State) (q : Word) : (s.setQuotient q).regs = s.regs := rfl
@[simp] theorem State.setQuotient_pc (s : State) (q : Word) : (s.setQuotient q).pc = s.pc := rfl
@[simp] theorem State.setQuotient_psw (s : State) (q : Word) : (s.setQuotient q).psw = 
    { s.psw with n := q.msb, z := q == 0#16, o := false, c := s.drawnBit 1 } := rfl
@[simp] theorem State.setQuotient_ie (s : State) (q : Word) : (s.setQuotient q).ie = s.ie := rfl
@[simp] theorem State.setQuotient_ia (s : State) (q : Word) : (s.setQuotient q).ia = s.ia := rfl
@[simp] theorem State.setQuotient_ir (s : State) (q : Word) : (s.setQuotient q).ir = s.ir := rfl
@[simp] theorem State.setQuotient_run (s : State) (q : Word) : (s.setQuotient q).run = s.run := rfl
@[simp] theorem State.setQuotient_mem (s : State) (q : Word) : (s.setQuotient q).mem = s.mem := rfl
@[simp] theorem State.setQuotient_launch (s : State) (q : Word) : (s.setQuotient q).launch = s.launch := rfl
@[simp] theorem State.setQuotient_draws (s : State) (q : Word) : (s.setQuotient q).draws = s.draws + 8 := rfl
@[simp] theorem State.setQuotient_pending (s : State) (q : Word) : (s.setQuotient q).pending = s.pending := rfl
@[simp] theorem State.setQuotient_envRequests (s : State) (q : Word) : (s.setQuotient q).envRequests = s.envRequests := rfl
@[simp] theorem State.setQuotient_outputs (s : State) (q : Word) : (s.setQuotient q).outputs = s.outputs := rfl

/-! ### State.setDivideOverflow -/

@[simp] theorem State.setDivideOverflow_regs (s : State) : (s.setDivideOverflow).regs = s.regs := rfl
@[simp] theorem State.setDivideOverflow_pc (s : State) : (s.setDivideOverflow).pc = s.pc := rfl
@[simp] theorem State.setDivideOverflow_psw (s : State) : (s.setDivideOverflow).psw = 
    { s.psw with n := s.drawnBit 3, z := s.drawnBit 4, o := true, c := s.drawnBit 1, oh := true } := rfl
@[simp] theorem State.setDivideOverflow_ie (s : State) : (s.setDivideOverflow).ie = s.ie := rfl
@[simp] theorem State.setDivideOverflow_ia (s : State) : (s.setDivideOverflow).ia = s.ia := rfl
@[simp] theorem State.setDivideOverflow_ir (s : State) : (s.setDivideOverflow).ir = s.ir := rfl
@[simp] theorem State.setDivideOverflow_run (s : State) : (s.setDivideOverflow).run = s.run := rfl
@[simp] theorem State.setDivideOverflow_mem (s : State) : (s.setDivideOverflow).mem = s.mem := rfl
@[simp] theorem State.setDivideOverflow_launch (s : State) : (s.setDivideOverflow).launch = s.launch := rfl
@[simp] theorem State.setDivideOverflow_draws (s : State) : (s.setDivideOverflow).draws = s.draws + 8 := rfl
@[simp] theorem State.setDivideOverflow_pending (s : State) : (s.setDivideOverflow).pending = s.pending := rfl
@[simp] theorem State.setDivideOverflow_envRequests (s : State) : (s.setDivideOverflow).envRequests = s.envRequests := rfl
@[simp] theorem State.setDivideOverflow_outputs (s : State) : (s.setDivideOverflow).outputs = s.outputs := rfl

/-! ### State.setLatchOf -/

@[simp] theorem State.setLatchOf_regs (s : State) (k : LatchKind) (l : BitVec 4) : (s.setLatchOf k l).regs = s.regs := by cases k <;> rfl
@[simp] theorem State.setLatchOf_pc (s : State) (k : LatchKind) (l : BitVec 4) : (s.setLatchOf k l).pc = s.pc := by cases k <;> rfl
@[simp] theorem State.setLatchOf_psw (s : State) (k : LatchKind) (l : BitVec 4) : (s.setLatchOf k l).psw = s.psw := by cases k <;> rfl
@[simp] theorem State.setLatchOf_run (s : State) (k : LatchKind) (l : BitVec 4) : (s.setLatchOf k l).run = s.run := by cases k <;> rfl
@[simp] theorem State.setLatchOf_mem (s : State) (k : LatchKind) (l : BitVec 4) : (s.setLatchOf k l).mem = s.mem := by cases k <;> rfl
@[simp] theorem State.setLatchOf_launch (s : State) (k : LatchKind) (l : BitVec 4) : (s.setLatchOf k l).launch = s.launch := by cases k <;> rfl
@[simp] theorem State.setLatchOf_draws (s : State) (k : LatchKind) (l : BitVec 4) : (s.setLatchOf k l).draws = s.draws := by cases k <;> rfl
@[simp] theorem State.setLatchOf_pending (s : State) (k : LatchKind) (l : BitVec 4) : (s.setLatchOf k l).pending = s.pending := by cases k <;> rfl
@[simp] theorem State.setLatchOf_envRequests (s : State) (k : LatchKind) (l : BitVec 4) : (s.setLatchOf k l).envRequests = s.envRequests := by cases k <;> rfl
@[simp] theorem State.setLatchOf_outputs (s : State) (k : LatchKind) (l : BitVec 4) : (s.setLatchOf k l).outputs = s.outputs := by cases k <;> rfl

/-! ### State.resetLatchOf -/

@[simp] theorem State.resetLatchOf_regs (s : State) (k : LatchKind) (l : BitVec 4) : (s.resetLatchOf k l).regs = s.regs := by cases k <;> rfl
@[simp] theorem State.resetLatchOf_pc (s : State) (k : LatchKind) (l : BitVec 4) : (s.resetLatchOf k l).pc = s.pc := by cases k <;> rfl
@[simp] theorem State.resetLatchOf_psw (s : State) (k : LatchKind) (l : BitVec 4) : (s.resetLatchOf k l).psw = s.psw := by cases k <;> rfl
@[simp] theorem State.resetLatchOf_run (s : State) (k : LatchKind) (l : BitVec 4) : (s.resetLatchOf k l).run = s.run := by cases k <;> rfl
@[simp] theorem State.resetLatchOf_mem (s : State) (k : LatchKind) (l : BitVec 4) : (s.resetLatchOf k l).mem = s.mem := by cases k <;> rfl
@[simp] theorem State.resetLatchOf_launch (s : State) (k : LatchKind) (l : BitVec 4) : (s.resetLatchOf k l).launch = s.launch := by cases k <;> rfl
@[simp] theorem State.resetLatchOf_draws (s : State) (k : LatchKind) (l : BitVec 4) : (s.resetLatchOf k l).draws = s.draws := by cases k <;> rfl
@[simp] theorem State.resetLatchOf_pending (s : State) (k : LatchKind) (l : BitVec 4) : (s.resetLatchOf k l).pending = s.pending := by cases k <;> rfl
@[simp] theorem State.resetLatchOf_envRequests (s : State) (k : LatchKind) (l : BitVec 4) : (s.resetLatchOf k l).envRequests = s.envRequests := by cases k <;> rfl
@[simp] theorem State.resetLatchOf_outputs (s : State) (k : LatchKind) (l : BitVec 4) : (s.resetLatchOf k l).outputs = s.outputs := by cases k <;> rfl

/-! ### State.link -/

@[simp] theorem State.link_pc (s : State) (r : Reg) (n : Nat) : (s.link r n).pc = s.pc := by unfold State.link; split <;> rfl
@[simp] theorem State.link_psw (s : State) (r : Reg) (n : Nat) : (s.link r n).psw = s.psw := by unfold State.link; split <;> rfl
@[simp] theorem State.link_ie (s : State) (r : Reg) (n : Nat) : (s.link r n).ie = s.ie := by unfold State.link; split <;> rfl
@[simp] theorem State.link_ia (s : State) (r : Reg) (n : Nat) : (s.link r n).ia = s.ia := by unfold State.link; split <;> rfl
@[simp] theorem State.link_ir (s : State) (r : Reg) (n : Nat) : (s.link r n).ir = s.ir := by unfold State.link; split <;> rfl
@[simp] theorem State.link_run (s : State) (r : Reg) (n : Nat) : (s.link r n).run = s.run := by unfold State.link; split <;> rfl
@[simp] theorem State.link_mem (s : State) (r : Reg) (n : Nat) : (s.link r n).mem = s.mem := by unfold State.link; split <;> rfl
@[simp] theorem State.link_launch (s : State) (r : Reg) (n : Nat) : (s.link r n).launch = s.launch := by unfold State.link; split <;> rfl
@[simp] theorem State.link_draws (s : State) (r : Reg) (n : Nat) : (s.link r n).draws = s.draws := by unfold State.link; split <;> rfl
@[simp] theorem State.link_pending (s : State) (r : Reg) (n : Nat) : (s.link r n).pending = s.pending := by unfold State.link; split <;> rfl
@[simp] theorem State.link_envRequests (s : State) (r : Reg) (n : Nat) : (s.link r n).envRequests = s.envRequests := by unfold State.link; split <;> rfl
@[simp] theorem State.link_outputs (s : State) (r : Reg) (n : Nat) : (s.link r n).outputs = s.outputs := by unfold State.link; split <;> rfl

/-! ### takeRequests -/

@[simp] theorem takeRequests_regs (s : State) : (takeRequests s).regs = s.regs := by unfold takeRequests; split <;> rfl
@[simp] theorem takeRequests_pc (s : State) : (takeRequests s).pc = s.pc := by unfold takeRequests; split <;> rfl
@[simp] theorem takeRequests_psw (s : State) : (takeRequests s).psw = s.psw := by unfold takeRequests; split <;> rfl
@[simp] theorem takeRequests_ie (s : State) : (takeRequests s).ie = s.ie := by unfold takeRequests; split <;> rfl
@[simp] theorem takeRequests_ia (s : State) : (takeRequests s).ia = s.ia := by unfold takeRequests; split <;> rfl
@[simp] theorem takeRequests_run (s : State) : (takeRequests s).run = s.run := by unfold takeRequests; split <;> rfl
@[simp] theorem takeRequests_mem (s : State) : (takeRequests s).mem = s.mem := by unfold takeRequests; split <;> rfl
@[simp] theorem takeRequests_launch (s : State) : (takeRequests s).launch = s.launch := by unfold takeRequests; split <;> rfl
@[simp] theorem takeRequests_draws (s : State) : (takeRequests s).draws = s.draws := by unfold takeRequests; split <;> rfl
@[simp] theorem takeRequests_pending (s : State) : (takeRequests s).pending = s.pending := by unfold takeRequests; split <;> rfl
@[simp] theorem takeRequests_outputs (s : State) : (takeRequests s).outputs = s.outputs := by unfold takeRequests; split <;> rfl

/-! ### Alu.flags -/

@[simp] theorem Alu.flags_regs {w : Nat} (op : Alu) (a b : BitVec w) (s : State) : (op.flags a b s).regs = s.regs := by cases op <;> rfl
@[simp] theorem Alu.flags_pc {w : Nat} (op : Alu) (a b : BitVec w) (s : State) : (op.flags a b s).pc = s.pc := by cases op <;> rfl
@[simp] theorem Alu.flags_ie {w : Nat} (op : Alu) (a b : BitVec w) (s : State) : (op.flags a b s).ie = s.ie := by cases op <;> rfl
@[simp] theorem Alu.flags_ia {w : Nat} (op : Alu) (a b : BitVec w) (s : State) : (op.flags a b s).ia = s.ia := by cases op <;> rfl
@[simp] theorem Alu.flags_ir {w : Nat} (op : Alu) (a b : BitVec w) (s : State) : (op.flags a b s).ir = s.ir := by cases op <;> rfl
@[simp] theorem Alu.flags_run {w : Nat} (op : Alu) (a b : BitVec w) (s : State) : (op.flags a b s).run = s.run := by cases op <;> rfl
@[simp] theorem Alu.flags_mem {w : Nat} (op : Alu) (a b : BitVec w) (s : State) : (op.flags a b s).mem = s.mem := by cases op <;> rfl
@[simp] theorem Alu.flags_launch {w : Nat} (op : Alu) (a b : BitVec w) (s : State) : (op.flags a b s).launch = s.launch := by cases op <;> rfl
@[simp] theorem Alu.flags_pending {w : Nat} (op : Alu) (a b : BitVec w) (s : State) : (op.flags a b s).pending = s.pending := by cases op <;> rfl
@[simp] theorem Alu.flags_envRequests {w : Nat} (op : Alu) (a b : BitVec w) (s : State) : (op.flags a b s).envRequests = s.envRequests := by cases op <;> rfl
@[simp] theorem Alu.flags_outputs {w : Nat} (op : Alu) (a b : BitVec w) (s : State) : (op.flags a b s).outputs = s.outputs := by cases op <;> rfl

/-! ### The status word after an operation -/

/-- No operation of the arithmetic touches the mode fields (R26). -/
theorem Alu.flags_mode {w : Nat} (op : Alu) (a b : BitVec w) (s : State) :
    (op.flags a b s).psw.im = s.psw.im ∧ (op.flags a b s).psw.pv = s.psw.pv
      ∧ (op.flags a b s).psw.grb = s.psw.grb ∧ (op.flags a b s).psw.om = s.psw.om := by
  cases op <;> exact ⟨rfl, rfl, rfl, rfl⟩

/-- No operation of the arithmetic clears the overflow history (R31). -/
theorem Alu.flags_oh {w : Nat} (op : Alu) (a b : BitVec w) (s : State) (h : s.psw.oh = true) :
    (op.flags a b s).psw.oh = true := by
  cases op <;> simp [Alu.flags, h]

end Sys2Proof.Machine
end

