-- ==== Sys2Proof/Laws/Ops.lean ====
section
/-! SUPPORT. One lemma for each shared operation that says once everything it can do: when it answers, and with what. -/

namespace Sys2Proof.Machine

/-! ### Sequencing -/

@[simp] theorem Res.bind_next {α β : Type} (a : α) (f : α → Res β) : Res.bind (.next a) f = f a := rfl
@[simp] theorem Res.bind_fault {α β : Type} (e : Fault) (f : α → Res β) : Res.bind (.fault e) f = .fault e := rfl
@[simp] theorem Res.bind_refused {α β : Type} (e : Refusal) (f : α → Res β) : Res.bind (.refused e) f = .refused e := rfl

/-- A sequence answers exactly where both parts do. -/
theorem Res.bind_eq_next {α β : Type} {x : Res α} {f : α → Res β} {b : β} :
    Res.bind x f = .next b ↔ ∃ a, x = .next a ∧ f a = .next b := by
  cases x <;> simp

/-! ### Registers -/

/-- A register operand answers exactly where its number is admitted (R21, R22). -/
theorem readReg_eq_next {k : Width} {r : Reg} {s : State} {v : BitVec k.bits} :
    @Eq (no_index (Res (BitVec k.bits))) (readReg k r s) (@Host.Outcome.next (no_index (BitVec k.bits)) Fault Refusal v) ↔ k.admits r = true ∧ s.regs.getMulti k r = v := by
  unfold readReg; split <;> simp_all

/-- An admitted register operand is the register's content. -/
theorem readReg_admitted {k : Width} {r : Reg} (s : State) (h : k.admits r = true) :
    readReg k r s = .next (s.regs.getMulti k r) := by
  simp [readReg, h]

/-- A single register operand. -/
theorem readReg_single_eq_next {r : Reg} {s : State} {v : Word} :
    @Eq (no_index (Res Word)) (readReg .single r s) (@Host.Outcome.next (no_index Word) Fault Refusal v) ↔ Width.admits .single r = true ∧ s.regs.get r = v := readReg_eq_next

/-- A register pair operand. -/
theorem readReg_double_eq_next {r : Reg} {s : State} {v : BitVec 32} :
    @Eq (no_index (Res (BitVec 32))) (readReg .double r s) (@Host.Outcome.next (no_index (BitVec 32)) Fault Refusal v) ↔ Width.admits .double r = true ∧ s.regs.get r ++ s.regs.get (r + 1) = v := readReg_eq_next

/-! ### Memory -/

/-- A word is read exactly where its address exists and it has been written (R89). -/
theorem loadWord_eq_next {a : Word} {s : State} {v : Word} :
    loadWord a s = .next v ↔ s.launched a = true ∧ s.mem.readWord a = some v := by
  unfold loadWord
  split
  · split <;> simp_all
  · simp_all

/-- A word is written exactly where its address exists (R89). -/
theorem storeWord_eq_next {a v : Word} {s t : State} :
    storeWord a v s = .next t ↔ s.launched a = true ∧ t = { s with mem := s.mem.writeWord a v } := by
  unfold storeWord
  split
  · rename_i h; simp [h, eq_comm]
  · rename_i h; simp [h]

/-- Which addresses exist does not depend on the memory's contents (R89). -/
@[simp] theorem State.launched_mem (s : State) (m : Memory) (a : Word) :
    State.launched { s with mem := m } a = s.launched a := rfl

/-- Consecutive words are written exactly where every address exists (R75, R89). -/
theorem storeWords_eq_next {a : Word} {vs : List Word} {s t : State} :
    storeWords a vs s = .next t ↔
      (∀ k < vs.length, s.launched (a + BitVec.ofNat 16 k) = true) ∧ t = { s with mem := s.mem.writeWords a vs } := by
  induction vs generalizing a s with
  | nil =>
    simp only [storeWords, Host.Outcome.next.injEq, List.length_nil, Nat.not_lt_zero, false_implies, implies_true, true_and]
    exact eq_comm
  | cons v vs ih =>
    have e : ∀ k, a + 1 + BitVec.ofNat 16 k = a + BitVec.ofNat 16 (k + 1) := fun k => by
      rw [Nat.add_comm k 1, BitVec.ofNat_add, ← BitVec.add_assoc]; rfl
    rw [storeWords, Res.bind_eq_next]
    simp only [storeWord_eq_next, ih, e, Memory.writeWords]
    constructor
    · rintro ⟨u, ⟨h0, rfl⟩, h1, rfl⟩
      refine ⟨fun k hk => ?_, rfl⟩
      cases k with
      | zero => simpa using h0
      | succ k => exact h1 k (by simpa using hk)
    · rintro ⟨h, rfl⟩
      exact ⟨_, ⟨by simpa using h 0 (by simp), rfl⟩, fun k hk => h (k + 1) (by simpa using hk), rfl⟩

/-- Consecutive words are read exactly where each of them can be (R75, R89). -/
theorem loadWords_eq_next {a : Word} {n : Nat} {s : State} {vs : List Word} :
    loadWords a n s = .next vs ↔
      vs.length = n ∧ ∀ (k : Nat) (h : k < vs.length), loadWord (a + BitVec.ofNat 16 k) s = .next vs[k] := by
  induction n generalizing a vs with
  | zero => cases vs <;> simp [loadWords]
  | succ n ih =>
    have e : ∀ k, a + 1 + BitVec.ofNat 16 k = a + BitVec.ofNat 16 (k + 1) := fun k => by
      rw [Nat.add_comm k 1, BitVec.ofNat_add, ← BitVec.add_assoc]; rfl
    simp only [loadWords, Res.bind_eq_next, ih, e]
    constructor
    · rintro ⟨v, hv, ws, ⟨hl, hw⟩, h⟩
      cases h
      refine ⟨by simp [hl], fun k hk => ?_⟩
      cases k with
      | zero => simpa using hv
      | succ k => exact hw k (by simpa using hk)
    · rintro ⟨hl, h⟩
      cases vs with
      | nil => simp at hl
      | cons v ws =>
        have h0 := h 0 (by simp)
        simp only [BitVec.add_zero, List.getElem_cons_zero] at h0
        exact ⟨v, h0, ws,
          ⟨by simpa using hl, fun k hk => h (k + 1) (by simpa using hk)⟩, rfl⟩

/-- An actual-memory write is a write of the word its address reaches (R87). -/
theorem physWrite_eq_next {pa : BitVec 32} {v : Word} {s t : State} :
    physWrite pa v s = .next t ↔
      ∃ a, actualAddress pa = some a ∧ s.launched a = true ∧ t = { s with mem := s.mem.writeWord a v } := by
  unfold physWrite
  split
  · rename_i a h; simp [h, storeWord_eq_next]
  · rename_i h; simp [h]

/-! ### Gates and events -/

/-- A privileged instruction goes on exactly in the privileged state (R602). -/
theorem privileged_eq_next {s t : State} {x : Res State} :
    privileged s x = .next t ↔ s.psw.pv = true ∧ x = .next t := by
  unfold privileged; split <;> simp_all [raiseEvent]

/-- Class T instructions execute in this configuration (R7; log 8). -/
@[simp] theorem tentative_admitted (x : Res State) : tentative x = x := rfl

/-- An answer of the environment becomes the next state exactly where it keeps the map and block fields and its memory is one. -/
theorem acceptAnswer_eq_next {s a t : State} :
    acceptAnswer s a = .next t ↔ a.mem.wf ∧ s.psw.sameSpace a.psw = true ∧ t = s.adopt a := by
  unfold acceptAnswer
  split
  · rename_i h
    split
    · rename_i h'
      exact ⟨fun e => by cases e; exact ⟨h, h', rfl⟩, fun e => by rw [e.2.2]⟩
    · rename_i h'
      exact ⟨fun e => (by cases e), fun e => absurd e.2.1 h'⟩
  · rename_i h
    exact ⟨fun e => (by cases e), fun e => absurd e.1 h⟩

/-- Taking an interrupt answers exactly where the entry keeps the conditions of R607. -/
theorem enterInterrupt_eq_next {l : BitVec 4} {s t : State} :
    enterInterrupt l s = .next t ↔ ∃ a, Config.interruptEntry l s = some a ∧ a.mem.wf ∧ s.psw.sameSpace a.psw = true
      ∧ t = s.adopt a ∧ entryKept l s t = true := by
  unfold enterInterrupt
  split
  · rename_i h; simp [h]
  · rename_i a h
    simp only [h, Res.bind_eq_next, acceptAnswer_eq_next, Option.some.injEq]
    constructor
    · rintro ⟨u, ⟨h1, h2, rfl⟩, h3⟩
      split at h3
      · rename_i hk
        cases h3
        exact ⟨a, rfl, h1, h2, rfl, hk⟩
      · cases h3
    · rintro ⟨_, rfl, h1, h2, rfl, h3⟩
      exact ⟨_, ⟨h1, h2, rfl⟩, by simp [h3]⟩

/-- The executive's turn answers exactly where it goes on with a state of the model (R604). -/
theorem executiveTurn_eq_next {sn : BitVec 8} {s t : State} :
    executiveTurn sn s = .next t ↔ ∃ a, Config.executive sn s = some a ∧ a.mem.wf ∧ s.psw.sameSpace a.psw = true
      ∧ t = s.adopt a := by
  unfold executiveTurn
  split
  · rename_i h; simp [h]
  · rename_i a h; simp [h, acceptAnswer_eq_next]

/-- The left word of two. -/
theorem append_high (a b : Word) : (a ++ b).extractLsb' 16 16 = a := by
  apply BitVec.eq_of_getLsbD_eq
  intro i h
  rw [BitVec.getLsbD_extractLsb', BitVec.getLsbD_append]
  simp [h]

/-- The right word of two. -/
theorem append_low (a b : Word) : (a ++ b).extractLsb' 0 16 = b := by
  apply BitVec.eq_of_getLsbD_eq
  intro i h
  rw [BitVec.getLsbD_extractLsb', BitVec.getLsbD_append]
  simp [h]

/-- A return from interrupt answers exactly where the rules let it, and this is the state after it (R608). -/
theorem returnFromInterrupt_eq_next {b : Bool} {r : Reg} {s t : State} :
    returnFromInterrupt b r s = .next t ↔ s.psw.pv = true ∧ Width.admits .double r = true ∧
      ∃ l, lowestActive s = some l ∧ s.psw.sameSpace (Psw.ofWord (s.regs.get (r + 1))) = true ∧
        t = { s with
          ia := resetLatch s.ia l
          ir := if b then resetLatch s.ir l else s.ir
          pc := s.regs.get r
          psw := Psw.ofWord (s.regs.get (r + 1)) } := by
  have hi := append_high (s.regs.get r) (s.regs.get (r + 1))
  have lo := append_low (s.regs.get r) (s.regs.get (r + 1))
  unfold returnFromInterrupt
  rw [privileged_eq_next, tentative_admitted, Res.bind_eq_next]
  constructor
  · rintro ⟨hp, psd, h', h⟩
    obtain ⟨hr, rfl⟩ := readReg_double_eq_next.mp h'
    refine ⟨hp, hr, ?_⟩
    cases hl : lowestActive s with
    | none => simp [hl] at h
    | some l =>
      simp only [hl, hi, lo] at h
      split at h
      · rename_i hs
        cases h
        exact ⟨l, rfl, hs, rfl⟩
      · cases h
  · rintro ⟨hp, hr, l, hl, hs, rfl⟩
    refine ⟨hp, _, readReg_double_eq_next.mpr ⟨hr, rfl⟩, ?_⟩
    simp only [hl, hi, lo, hs, if_true]

/-! ### Levels -/

/-- The sixteen levels in order of priority. -/
theorem mem_levels (l : BitVec 4) : l ∈ levels := by revert l; decide

/-- The mask of bit BIT has that one bit (R71). -/
theorem bitmask_eq_twoPow (n : Nibble) : bitmask n = BitVec.twoPow 16 (15 - n.toNat) := by revert n; decide

/-- The latch of a level is one bit of the word (R35). -/
theorem latch_eq_getLsbD (w : Word) (l : BitVec 4) : latch w l = w.getLsbD (15 - l.toNat) := by
  rw [latch, bitmask_eq_twoPow, BitVec.and_twoPow]
  split
  · rename_i h
    have nz : ∀ l : BitVec 4, (BitVec.twoPow 16 (15 - l.toNat) != 0#16) = true := by decide
    rw [h, nz]
  · rename_i h; simp [h]

/-- Which bit of the mask of one level another level's is. -/
theorem getLsbD_bitmask (l k : BitVec 4) : (bitmask l).getLsbD (15 - k.toNat) = (k == l) := by revert l k; decide

/-- Setting a latch sets that one (R35). -/
theorem latch_setLatch (w : Word) (l k : BitVec 4) : latch (setLatch w l) k = (latch w k || k == l) := by
  rw [latch_eq_getLsbD, latch_eq_getLsbD, setLatch, BitVec.getLsbD_or, getLsbD_bitmask]

/-- Resetting a latch resets that one (R35). -/
theorem latch_resetLatch (w : Word) (l k : BitVec 4) : latch (resetLatch w l) k = (latch w k && k != l) := by
  have h : 15 - k.toNat < 16 := by omega
  rw [latch_eq_getLsbD, latch_eq_getLsbD, resetLatch, BitVec.getLsbD_and, BitVec.getLsbD_not, getLsbD_bitmask]
  simp [h, bne]

/-- Two latch words that agree once a level is reset agree at every other level. -/
theorem resetLatch_eq_iff (l : BitVec 4) (v w : Word) :
    resetLatch v l = resetLatch w l ↔ ∀ k, k ≠ l → latch v k = latch w k := by
  constructor
  · intro h k hk
    have a := latch_resetLatch v l k
    rw [h, latch_resetLatch, show (k != l) = true by simpa using hk, Bool.and_true, Bool.and_true] at a
    exact a.symm
  · intro h
    apply BitVec.eq_of_getLsbD_eq
    intro i hi
    have e : i = 15 - (BitVec.ofNat 4 (15 - i)).toNat := by simp; omega
    rw [e, ← latch_eq_getLsbD, ← latch_eq_getLsbD, latch_resetLatch, latch_resetLatch]
    by_cases hk : BitVec.ofNat 4 (15 - i) = l
    · simp [hk]
    · rw [h _ hk]

/-- A search of the levels finds the lowest-numbered one. -/
theorem find_levels {f : BitVec 4 → Bool} {l : BitVec 4} :
    levels.find? f = some l ↔ f l = true ∧ ∀ k, k < l → f k = false := by
  constructor
  · intro h
    refine ⟨List.find?_some h, fun k hk => ?_⟩
    by_contra hf
    obtain ⟨-, as, bs, e, hb⟩ := List.find?_eq_some_iff_append.mp h
    have : k ∈ as := by
      revert hk; revert e
      intro e hk
      have ho : levels.Pairwise (· < ·) := by decide
      have hm : k ∈ as ++ l :: bs := e ▸ mem_levels k
      rw [e, List.pairwise_append] at ho
      rcases List.mem_append.mp hm with h | h
      · exact h
      · rcases List.mem_cons.mp h with h | h
        · exact absurd (h ▸ hk) (by simp)
        · exact absurd hk (by have := List.rel_of_pairwise_cons ho.2.1 h; bv_omega)
    exact hf (by simpa using hb k this)
  · rintro ⟨h, h'⟩
    have cut : ∀ l : BitVec 4, levels = levels.take l.toNat ++ l :: levels.drop (l.toNat + 1) := by decide
    rw [List.find?_eq_some_iff_append]
    refine ⟨h, levels.take l.toNat, levels.drop (l.toNat + 1), cut l, fun a ha => ?_⟩
    have : a < l := by
      have all : ∀ l : BitVec 4, ∀ a ∈ levels.take l.toNat, a < l := by decide
      exact all l a ha
    simp [h' a this]

/-- No interrupt is taken exactly where no level is recognisable (R606). -/
theorem recognise_eq_none {s : State} : recognise s = none ↔ ∀ l, recognisable s l = false := by
  simp [recognise, List.find?_eq_none, mem_levels]

/-- The level being served is the lowest-numbered active one (R608). -/
theorem lowestActive_eq_some {s : State} {l : BitVec 4} :
    lowestActive s = some l ↔ latch s.ia l = true ∧ ∀ k, k < l → latch s.ia k = false := find_levels

/-- The interrupt taken is the lowest-numbered recognisable level (R606). -/
theorem recognise_eq_some {s : State} {l : BitVec 4} :
    recognise s = some l ↔ recognisable s l = true ∧ ∀ k, k < l → recognisable s k = false := find_levels

end Sys2Proof.Machine
end

