-- ==== Sys2Proof/Laws/Shapes.lean ====
section
/-! SUPPORT. What each body shared by the rows of one shape answers, said once. -/

namespace Sys2Proof.Machine

/-- A row with a register destination. -/
theorem toRegister_eq_next {k : Width} {op : Alu} {r : Reg} {src : Src k} {nx : Next} {s t : State} :
    toRegister k op r src nx s = .next t ↔ k.admits r = true ∧ ∃ b, src.read s = .next b ∧
      t = ((op.flags (s.regs.getMulti k r) b s).setReg k r (op.result (s.regs.getMulti k r) b)).finish nx
        (op.result (s.regs.getMulti k r) b != 0#k.bits) := by
  unfold toRegister
  simp only [Res.bind_eq_next, readReg_eq_next]
  constructor
  · rintro ⟨a, ⟨h, rfl⟩, b, hb, e⟩
    cases e
    exact ⟨h, b, hb, rfl⟩
  · rintro ⟨h, b, hb, rfl⟩
    exact ⟨_, ⟨h, rfl⟩, b, hb, rfl⟩

/-- A row with a memory destination. -/
theorem toMemory_eq_next {op : Alu} {o : MemOperand} {src : Src .single} {nx : Next} {s t : State} :
    toMemory op o src nx s = .next t ↔ ∃ b ea a, src.read s = .next b ∧ effectiveAddress o s = .next ea ∧
      loadWord ea s = .next a ∧
      t = State.finish { op.flags a b s with mem := s.mem.writeWord ea (op.result a b) } nx (op.result a b != 0#16) := by
  unfold toMemory
  simp only [Res.bind_eq_next, storeWord_eq_next]
  constructor
  · rintro ⟨b, hb, ea, he, a, ha, u, ⟨-, rfl⟩, h⟩
    cases h
    exact ⟨b, ea, a, hb, he, ha, by simp⟩
  · rintro ⟨b, ea, a, hb, he, ha, rfl⟩
    refine ⟨b, hb, ea, he, a, ha, _, ⟨?_, rfl⟩, by simp⟩
    have := (loadWord_eq_next.mp ha).1
    simpa [State.launched] using this

/-- A row that sets codes only. -/
theorem inspect_eq_next {k : Width} {op : Alu} {x y : Src k} {nx : Next} {s t : State} :
    inspect k op x y nx s = .next t ↔ ∃ a b, x.read s = .next a ∧ y.read s = .next b ∧
      t = (op.flags a b s).finish nx (op.result a b != 0#k.bits) := by
  unfold inspect
  simp only [Res.bind_eq_next]
  constructor
  · rintro ⟨a, ha, b, hb, h⟩
    cases h
    exact ⟨a, b, ha, hb, rfl⟩
  · rintro ⟨a, b, ha, hb, rfl⟩
    exact ⟨a, ha, b, hb, rfl⟩

/-- A store. -/
theorem storeRegister_eq_next {k : Width} {o : MemOperand} {r : Reg} {n : Nat} {s t : State} :
    storeRegister k o r n s = .next t ↔ k.admits r = true ∧ ∃ ea, effectiveAddress o s = .next ea ∧
      (∀ i < (wordsOf k (s.regs.getMulti k r)).length, s.launched (ea + BitVec.ofNat 16 i) = true) ∧
      t = State.advance { s with mem := s.mem.writeWords ea (wordsOf k (s.regs.getMulti k r)) } n := by
  unfold storeRegister storeMulti
  simp only [Res.bind_eq_next, readReg_eq_next, storeWords_eq_next]
  constructor
  · rintro ⟨v, ⟨h, rfl⟩, ea, he, u, ⟨hl, rfl⟩, e⟩
    cases e
    exact ⟨h, ea, he, hl, rfl⟩
  · rintro ⟨h, ea, he, hl, rfl⟩
    exact ⟨_, ⟨h, rfl⟩, ea, he, _, ⟨hl, rfl⟩, rfl⟩

/-- Store Immediate. -/
theorem storeImmediate_eq_next {r : Reg} {s t : State} :
    storeImmediate r s = .next t ↔ Width.admits .single r = true ∧ s.launched (s.pc + 1) = true ∧
      t = State.advance { s with mem := s.mem.writeWord (s.pc + 1) (s.regs.get r) } 2 := by
  unfold storeImmediate
  simp only [Res.bind_eq_next, readReg_single_eq_next, storeWord_eq_next]
  constructor
  · rintro ⟨v, ⟨h, rfl⟩, u, ⟨hl, rfl⟩, e⟩
    cases e
    exact ⟨h, hl, rfl⟩
  · rintro ⟨h, hl, rfl⟩
    exact ⟨_, ⟨h, rfl⟩, _, ⟨hl, rfl⟩, rfl⟩

/-- Load File. -/
theorem loadFile_eq_next {o : MemOperand} {r : Reg} {n : Nat} {s t : State} :
    loadFile o r n s = .next t ↔ Width.admits .single r = true ∧ ∃ ea vs, effectiveAddress o s = .next ea ∧
      loadWords ea (fileSize r) s = .next vs ∧ t = State.advance { s with regs := s.regs.setFile r vs } n := by
  unfold loadFile
  simp only [Res.bind_eq_next, readReg_eq_next]
  constructor
  · rintro ⟨v, ⟨h, -⟩, ea, he, vs, hv, e⟩
    cases e
    exact ⟨h, ea, vs, he, hv, rfl⟩
  · rintro ⟨h, ea, vs, he, hv, rfl⟩
    exact ⟨_, ⟨h, rfl⟩, ea, he, vs, hv, rfl⟩

/-- Store File. -/
theorem storeFile_eq_next {o : MemOperand} {r : Reg} {n : Nat} {s t : State} :
    storeFile o r n s = .next t ↔ Width.admits .single r = true ∧ ∃ ea, effectiveAddress o s = .next ea ∧
      (∀ i < (s.regs.file r (fileSize r)).length, s.launched (ea + BitVec.ofNat 16 i) = true) ∧
      t = State.advance { s with mem := s.mem.writeWords ea (s.regs.file r (fileSize r)) } n := by
  unfold storeFile
  simp only [Res.bind_eq_next, readReg_eq_next, storeWords_eq_next]
  constructor
  · rintro ⟨v, ⟨h, -⟩, ea, he, u, ⟨hl, rfl⟩, e⟩
    cases e
    exact ⟨h, ea, he, hl, rfl⟩
  · rintro ⟨h, ea, he, hl, rfl⟩
    exact ⟨_, ⟨h, rfl⟩, ea, he, _, ⟨hl, rfl⟩, rfl⟩

/-- Load Byte. -/
theorem loadByte_eq_next {r x : Reg} {s t : State} :
    loadByte r x s = .next t ↔ Width.admits .single r = true ∧ ∃ a left v, byteAddress x s = .next (a, left) ∧
      loadWord a s = .next v ∧
      t = ((s.setCodes (classify (if left then v.extractLsb' 8 8 else v.extractLsb' 0 8))).setReg .single r
        ((if left then v.extractLsb' 8 8 else v.extractLsb' 0 8).zeroExtend 16)).advance 1 := by
  unfold loadByte
  simp only [Res.bind_eq_next, readReg_eq_next]
  constructor
  · rintro ⟨_, ⟨h, -⟩, ⟨a, left⟩, ha, v, hv, e⟩
    cases e
    exact ⟨h, a, left, v, ha, hv, rfl⟩
  · rintro ⟨h, a, left, v, ha, hv, rfl⟩
    exact ⟨_, ⟨h, rfl⟩, (a, left), ha, v, hv, rfl⟩

/-- Store Byte. -/
theorem storeByte_eq_next {r x : Reg} {s t : State} :
    storeByte r x s = .next t ↔ Width.admits .single r = true ∧ ∃ a left v, byteAddress x s = .next (a, left) ∧
      loadWord a s = .next v ∧
      ∃ w, w = (if left then (s.regs.get r).extractLsb' 0 8 ++ v.extractLsb' 0 8
          else v.extractLsb' 8 8 ++ (s.regs.get r).extractLsb' 0 8) ∧
        t = State.advance { s with mem := s.mem.writeWord a w } 1 := by
  unfold storeByte
  simp only [Res.bind_eq_next, readReg_single_eq_next, storeWord_eq_next]
  constructor
  · rintro ⟨_, ⟨h, rfl⟩, ⟨a, left⟩, ha, v, hv, u, ⟨-, rfl⟩, e⟩
    cases e
    exact ⟨h, a, left, v, ha, hv, _, rfl, rfl⟩
  · rintro ⟨h, a, left, v, ha, hv, _, rfl, rfl⟩
    exact ⟨_, ⟨h, rfl⟩, (a, left), ha, v, hv, _, ⟨(loadWord_eq_next.mp hv).1, rfl⟩, rfl⟩

/-- The byte moves. -/
theorem moveByte_eq_next {a d : ByteSide} {r q : Reg} {s t : State} :
    moveByte a d r q s = .next t ↔ Width.admits .single r = true ∧ Width.admits .single q = true ∧
      ∃ u, u = (if d = .lower then
          s.setCodes (classify (byteOf .lower (placeByte d (byteOf a (s.regs.get q)) (s.regs.get r)))) else s.setAllDrawn) ∧
        t = (u.setReg .single r (placeByte d (byteOf a (s.regs.get q)) (s.regs.get r))).advance 1 := by
  unfold moveByte
  simp only [Res.bind_eq_next, readReg_single_eq_next]
  constructor
  · rintro ⟨_, ⟨h, rfl⟩, _, ⟨h', rfl⟩, e⟩
    cases e
    exact ⟨h, h', _, rfl, by cases d <;> rfl⟩
  · rintro ⟨h, h', _, rfl, rfl⟩
    exact ⟨_, ⟨h, rfl⟩, _, ⟨h', rfl⟩, by cases d <;> rfl⟩

/-- Interchange Bytes. -/
theorem interchangeBytes_eq_next {r q : Reg} {s t : State} :
    interchangeBytes r q s = .next t ↔ Width.admits .single r = true ∧ Width.admits .single q = true ∧
      t = ((s.setCodes (classify (byteOf .lower (byteOf .lower (s.regs.get q) ++ byteOf .upper (s.regs.get q))))).setReg .single r
        (byteOf .lower (s.regs.get q) ++ byteOf .upper (s.regs.get q))).advance 1 := by
  unfold interchangeBytes
  simp only [Res.bind_eq_next, readReg_single_eq_next]
  constructor
  · rintro ⟨_, ⟨h, -⟩, _, ⟨h', rfl⟩, e⟩
    cases e
    exact ⟨h, h', rfl⟩
  · rintro ⟨h, h', rfl⟩
    exact ⟨_, ⟨h, rfl⟩, _, ⟨h', rfl⟩, rfl⟩

/-- Interchange R and M. -/
theorem interchangeMemory_eq_next {r : Reg} {m : LongAddress} {s t : State} :
    interchangeMemory r m s = .next t ↔ Width.admits .single r = true ∧ ∃ ea v, longAddress m s = .next ea ∧
      loadWord ea s = .next v ∧
      t = (State.setReg { s with mem := s.mem.writeWord ea (s.regs.get r) } .single r v).advance 2 := by
  unfold interchangeMemory
  simp only [Res.bind_eq_next, readReg_single_eq_next, storeWord_eq_next]
  constructor
  · rintro ⟨_, ⟨h, rfl⟩, ea, he, v, hv, u, ⟨-, rfl⟩, e⟩
    cases e
    exact ⟨h, ea, v, he, hv, rfl⟩
  · rintro ⟨h, ea, v, he, hv, rfl⟩
    exact ⟨_, ⟨h, rfl⟩, ea, he, v, hv, _, ⟨(loadWord_eq_next.mp hv).1, rfl⟩, rfl⟩

/-- Interchange R and R. -/
theorem interchangeRegisters_eq_next {r q : Reg} {s t : State} :
    interchangeRegisters r q s = .next t ↔ Width.admits .single r = true ∧ Width.admits .single q = true ∧
      t = ((s.setReg .single r (s.regs.get q)).setReg .single q (s.regs.get r)).advance 1 := by
  unfold interchangeRegisters
  simp only [Res.bind_eq_next, readReg_single_eq_next]
  constructor
  · rintro ⟨_, ⟨h, rfl⟩, _, ⟨h', rfl⟩, e⟩
    cases e
    exact ⟨h, h', rfl⟩
  · rintro ⟨h, h', rfl⟩
    exact ⟨_, ⟨h, rfl⟩, _, ⟨h', rfl⟩, rfl⟩

/-- A shift. -/
theorem shift_eq_next {k : Width} {kind : ShiftKind} {r : Reg} {c : Nibble} {s t : State} :
    shift k kind r c s = .next t ↔ k.admits r = true ∧
      t = ((s.setZNDrawn (kind.apply (s.regs.getMulti k r) c.toNat (Config.draw k.bits s.draws))).setReg k r
        (kind.apply (s.regs.getMulti k r) c.toNat (Config.draw k.bits s.draws))).advance 1 := by
  unfold shift
  simp only [Res.bind_eq_next, readReg_eq_next]
  constructor
  · rintro ⟨_, ⟨h, rfl⟩, e⟩
    cases e
    exact ⟨h, rfl⟩
  · rintro ⟨h, rfl⟩
    exact ⟨_, ⟨h, rfl⟩, rfl⟩

/-- A hop. -/
theorem hopIf_eq_next {b : Bool} {n : BitVec 7} {s t : State} :
    hopIf b n s = .next t ↔ n ≠ 0x40#7 ∧ t = { s with pc := if b then hopTarget s.pc n else s.pc + 1 } := by
  unfold hopIf
  split
  · rename_i h; simp [h]
  · rename_i h; simp [h, eq_comm]

/-- An address in an index register. -/
theorem indexedAddress_eq_next {x : Reg} {s : State} {a : Word} :
    indexedAddress x s = .next a ↔ indexAdmitted x = true ∧ s.regs.get x = a := by
  unfold indexedAddress; split <;> simp_all

/-- A short-indexed branch. -/
theorem branchIndexedIf_eq_next {b : Bool} {x : Reg} {s t : State} :
    branchIndexedIf b x s = .next t ↔ indexAdmitted x = true ∧ t = { s with pc := if b then s.regs.get x else s.pc + 1 } := by
  unfold branchIndexedIf
  simp only [Res.bind_eq_next, indexedAddress_eq_next]
  constructor
  · rintro ⟨_, ⟨h, rfl⟩, e⟩
    cases e
    exact ⟨h, rfl⟩
  · rintro ⟨h, rfl⟩
    exact ⟨_, ⟨h, rfl⟩, rfl⟩

/-- A conditional branch and link always answers. -/
theorem branchLinkIf_eq_next {b : Bool} {r : Reg} {a : Word} {s t : State} :
    branchLinkIf b r a s = .next t ↔ t = if b then { s.link r 2 with pc := a } else s.advance 2 := by
  unfold branchLinkIf; split <;> simp [eq_comm]

/-- Multiply. -/
theorem multiply_eq_next {r : Reg} {src : Src .single} {n : Nat} {s t : State} :
    multiply r src n s = .next t ↔ ∃ pair b, readPair r s = .next pair ∧ src.read s = .next b ∧
      t = ((s.setZNDrawn (BitVec.ofInt 32 ((pair.extractLsb' 0 16).toInt * b.toInt))).setReg .double r
        (BitVec.ofInt 32 ((pair.extractLsb' 0 16).toInt * b.toInt))).advance n := by
  unfold multiply
  simp only [Res.bind_eq_next]
  constructor
  · rintro ⟨p, hp, b, hb, e⟩
    cases e
    exact ⟨p, b, hp, hb, rfl⟩
  · rintro ⟨p, b, hp, hb, rfl⟩
    exact ⟨p, hp, b, hb, rfl⟩

/-- Divide, where there is a quotient and where there is none. -/
theorem divide_eq_next {r : Reg} {src : Src .single} {n : Nat} {s t : State} :
    divide r src n s = .next t ↔ ∃ pair b, readPair r s = .next pair ∧ src.read s = .next b ∧
      ((∃ q m, quotient pair b = some (q, m) ∧ t = ((s.setQuotient q).setReg .double r (m ++ q)).advance n) ∨
        (quotient pair b = none ∧
          t = ((s.setDivideOverflow).setReg .double r (Config.draw 32 s.draws)).advance n)) := by
  unfold divide
  simp only [Res.bind_eq_next]
  constructor
  · rintro ⟨p, hp, b, hb, e⟩
    refine ⟨p, b, hp, hb, ?_⟩
    split at e
    · rename_i q m hq
      cases e
      exact .inl ⟨q, m, hq, rfl⟩
    · rename_i hq
      cases e
      exact .inr ⟨hq, rfl⟩
  · rintro ⟨p, b, hp, hb, ⟨q, m, hq, rfl⟩ | ⟨hq, rfl⟩⟩ <;> exact ⟨p, hp, b, hb, by simp [hq]⟩

/-- Extend Sign. -/
theorem extendSign_eq_next {k w : Width} {r q : Reg} {s t : State} :
    extendSign k w r q s = .next t ↔ w.admits r = true ∧ k.admits q = true ∧
      t = ((s.setZNDrawn ((s.regs.getMulti k q).signExtend w.bits)).setReg w r
        ((s.regs.getMulti k q).signExtend w.bits)).advance 1 := by
  unfold extendSign
  simp only [Res.bind_eq_next, readReg_eq_next]
  constructor
  · rintro ⟨_, ⟨h, -⟩, _, ⟨h', rfl⟩, e⟩
    cases e
    exact ⟨h, h', rfl⟩
  · rintro ⟨h, h', rfl⟩
    exact ⟨_, ⟨h, rfl⟩, _, ⟨h', rfl⟩, rfl⟩

/-- A floating-point register row. -/
theorem floatRegister_eq_next {k : Width} {op : FloatOp} {r q : Reg} {s t : State} :
    floatRegister k op r q s = .next t ↔ k.admits r = true ∧ k.admits q = true ∧
      t = floatResult k r (op.apply k.bits (s.regs.getMulti k r) (s.regs.getMulti k q)) 1 s := by
  unfold floatRegister
  simp only [Res.bind_eq_next, readReg_eq_next]
  constructor
  · rintro ⟨_, ⟨h, rfl⟩, _, ⟨h', rfl⟩, e⟩
    cases e
    exact ⟨h, h', rfl⟩
  · rintro ⟨h, h', rfl⟩
    exact ⟨_, ⟨h, rfl⟩, _, ⟨h', rfl⟩, rfl⟩

/-- A floating-point memory row. -/
theorem floatMemory_eq_next {k : Width} {op : FloatOp} {r : Reg} {m : LongAddress} {s t : State} :
    floatMemory k op r m s = .next t ↔ m.ind = false ∧ k.admits r = true ∧ ∃ b, readMem k (.long m) s = .next b ∧
      t = floatResult k r (op.apply k.bits (s.regs.getMulti k r) b) 2 s := by
  unfold floatMemory
  split
  · rename_i h; simp [h]
  · rename_i h
    simp only [Res.bind_eq_next, readReg_eq_next]
    constructor
    · rintro ⟨_, ⟨h1, rfl⟩, b, hb, e⟩
      cases e
      exact ⟨by simpa using h, h1, b, hb, rfl⟩
    · rintro ⟨-, h1, b, hb, rfl⟩
      exact ⟨_, ⟨h1, rfl⟩, b, hb, rfl⟩

/-- A floating-point conversion. -/
theorem convert_eq_next {k : Width} {f : BitVec k.bits → FpResult 32} {r q : Reg} {s t : State} :
    convert k f r q s = .next t ↔ Width.admits .double r = true ∧ k.admits q = true ∧
      t = floatResult .double r (f (s.regs.getMulti k q)) 1 s := by
  unfold convert
  simp only [Res.bind_eq_next, readReg_eq_next]
  constructor
  · rintro ⟨_, ⟨h, -⟩, _, ⟨h', rfl⟩, e⟩
    cases e
    exact ⟨h, h', rfl⟩
  · rintro ⟨h, h', rfl⟩
    exact ⟨_, ⟨h, rfl⟩, _, ⟨h', rfl⟩, rfl⟩

/-- A load of a control word. -/
theorem loadControl_eq_next {r : Reg} {v : Word} {s t : State} :
    loadControl r v s = .next t ↔ Width.admits .single r = true ∧ t = (s.setReg .single r v).advance 1 := by
  unfold loadControl
  simp only [Res.bind_eq_next, readReg_eq_next]
  constructor
  · rintro ⟨_, ⟨h, -⟩, e⟩
    cases e
    exact ⟨h, rfl⟩
  · rintro ⟨h, rfl⟩
    exact ⟨_, ⟨h, rfl⟩, rfl⟩

/-- Input Status. -/
theorem inputStatus_eq_next {j : BitVec 2} {r : Reg} {u : Nibble} {s t : State} :
    inputStatus j r u s = .next t ↔ Width.admits .single r = true ∧
      t = ((s.setReported (Config.inputStatus s.draws j u).codes).setReg .single r
        (Config.inputStatus s.draws j u).value).advance 1 := by
  unfold inputStatus
  simp only [Res.bind_eq_next, readReg_eq_next]
  constructor
  · rintro ⟨_, ⟨h, -⟩, e⟩
    cases e
    exact ⟨h, rfl⟩
  · rintro ⟨h, rfl⟩
    exact ⟨_, ⟨h, rfl⟩, rfl⟩

/-- Input Data. -/
theorem inputData_eq_next {j : BitVec 2} {r : Reg} {u : Nibble} {s t : State} :
    inputData j r u s = .next t ↔ Width.admits .single r = true ∧
      t = (((s.setCodes (classify ((Config.inputData s.draws j u).extractLsb' 0 8))).drew).setReg .single r
        (Config.inputData s.draws j u)).advance 1 := by
  unfold inputData
  simp only [Res.bind_eq_next, readReg_eq_next]
  constructor
  · rintro ⟨_, ⟨h, -⟩, e⟩
    cases e
    exact ⟨h, rfl⟩
  · rintro ⟨h, rfl⟩
    exact ⟨_, ⟨h, rfl⟩, rfl⟩

/-- Output Command and Output Data. -/
theorem outputWord_eq_next {event : Word → OutputEvent} {r : Reg} {s t : State} :
    outputWord event r s = .next t ↔ Width.admits .single r = true ∧
      t = { s with outputs := event (s.regs.get r) :: s.outputs }.advance 1 := by
  unfold outputWord
  simp only [Res.bind_eq_next, readReg_single_eq_next]
  constructor
  · rintro ⟨_, ⟨h, rfl⟩, e⟩
    cases e
    exact ⟨h, rfl⟩
  · rintro ⟨h, rfl⟩
    exact ⟨_, ⟨h, rfl⟩, rfl⟩

end Sys2Proof.Machine
end

