-- ==== Sys2Proof/Laws/Rows.lean ====
section
/-! SUPPORT. What each row of the card does, by shape: the arm of `exec` is the body the rows of that shape share. -/

namespace Sys2Proof.Machine

/-- A row with a register destination. -/
theorem exec_registerRow {i : Instr} {op : Alu} {row : RegisterRow} (h : registerRow i = some (op, row)) (s : State) :
    exec i s = toRegister row.k op row.r row.src row.nx s := by
  cases i <;> first | contradiction | (cases h; rfl)

/-- A row with a memory destination. -/
theorem exec_memoryRow {i : Instr} {op : Alu} {row : MemoryRow} (h : memoryRow i = some (op, row)) (s : State) :
    exec i s = toMemory op row.o row.src row.nx s := by
  cases i <;> first | contradiction | (cases h; rfl)

/-- A row that sets codes only. -/
theorem exec_inspectRow {i : Instr} {op : Alu} {row : InspectRow} (h : inspectRow i = some (op, row)) (s : State) :
    exec i s = inspect row.k op row.first row.second row.nx s := by
  cases i <;> first | contradiction | (cases h; rfl)

/-- A store. -/
theorem exec_storeRow {i : Instr} {row : StoreRow} (h : storeRow i = some row) (s : State) :
    exec i s = storeRegister row.k row.o row.r row.words s := by
  cases i <;> first | contradiction | (cases h; rfl)

/-- A Load File row. -/
theorem exec_loadFileRow {i : Instr} {row : FileRow} (h : loadFileRow i = some row) (s : State) :
    exec i s = loadFile row.o row.r row.words s := by
  cases i <;> first | contradiction | (cases h; rfl)

/-- A Store File row. -/
theorem exec_storeFileRow {i : Instr} {row : FileRow} (h : storeFileRow i = some row) (s : State) :
    exec i s = storeFile row.o row.r row.words s := by
  cases i <;> first | contradiction | (cases h; rfl)

/-- A shift. -/
theorem exec_shiftRow {i : Instr} {row : ShiftRow} (h : shiftRow i = some row) (s : State) :
    exec i s = shift row.k row.kind row.r row.c s := by
  cases i <;> first | contradiction | (cases h; rfl)

/-- A conditional hop. -/
theorem exec_hopRow {i : Instr} {row : HopRow} (h : hopRow i = some row) (s : State) :
    exec i s = hopIf (s.psw.cond row.cond != row.inverted) row.n s := by
  cases i <;> first
    | contradiction
    | (cases h; exact congrArg (fun b => hopIf b _ s) (Bool.bne_false _).symm)
    | (cases h; exact congrArg (fun b => hopIf b _ s) (Bool.bne_true _).symm)

/-- A short-indexed branch. -/
theorem exec_indexedBranchRow {i : Instr} {row : IndexedBranchRow} (h : indexedBranchRow i = some row) (s : State) :
    exec i s = branchIndexedIf (s.psw.cond row.cond != row.inverted) row.x s := by
  cases i <;> first
    | contradiction
    | (cases h; exact congrArg (fun b => branchIndexedIf b _ s) (Bool.bne_false _).symm)
    | (cases h; exact congrArg (fun b => branchIndexedIf b _ s) (Bool.bne_true _).symm)

/-- A conditional branch and link. -/
theorem exec_linkBranchRow {i : Instr} {row : LinkBranchRow} (h : linkBranchRow i = some row) (s : State) :
    exec i s = branchLinkIf (s.psw.cond row.cond != row.inverted) row.r row.b s := by
  cases i <;> first
    | contradiction
    | (cases h; exact congrArg (fun b => branchLinkIf b _ _ s) (Bool.bne_false _).symm)
    | (cases h; exact congrArg (fun b => branchLinkIf b _ _ s) (Bool.bne_true _).symm)

/-- An integer multiply. -/
theorem exec_multiplyRow {i : Instr} {row : PairRow} (h : multiplyRow i = some row) (s : State) :
    exec i s = multiply row.r row.src row.words s := by
  cases i <;> first | contradiction | (cases h; rfl)

/-- An integer divide. -/
theorem exec_divideRow {i : Instr} {row : PairRow} (h : divideRow i = some row) (s : State) :
    exec i s = divide row.r row.src row.words s := by
  cases i <;> first | contradiction | (cases h; rfl)

/-- A floating-point row over registers is direct; the memory rows refuse the indirect form. -/
theorem exec_floatRow {i : Instr} {row : FloatRow} (h : floatRow i = some row) (s : State) :
    exec i s = if row.indirect then .refused .floatingIndirect
      else Res.bind (readReg row.k row.r s) fun a => Res.bind (row.src.read s) fun b =>
        .next (floatResult row.k row.r (row.op.apply row.k.bits a b) row.words s) := by
  cases i <;> first | contradiction | (cases h; rfl)

/-- A class X row: the privilege check where it is privileged, then the refusal. -/
theorem exec_refusedRow {i : Instr} {r : Refusal} (h : refusedRow i = some r) (s : State) :
    exec i s = if isPrivileged i then privileged s (.refused r) else .refused r := by
  cases i <;> first | contradiction | (cases h; rfl)

/-- A register multiple written: it holds the value, and every other register what it held. -/
theorem onlyRegisters_setMulti (g : Regs) (k : Width) (r : Reg) (v : BitVec k.bits) (h : k.admits r = true) :
    OnlyRegisters g (g.setMulti k r v) k r v :=
  ⟨Regs.getMulti_setMulti _ _ _ _ h, fun _ hq => Regs.get_setMulti_outside _ _ _ _ _ hq⟩

/-- A register destination written after its codes, and the end of the instruction: what `WritesRegister` says. -/
theorem writesRegister_toRegister {op : Alu} {k : Width} {s : State} {r : Reg} {a b : BitVec k.bits} {nx : Next} {c : Bool}
    (h : k.admits r = true) :
    WritesRegister s (((op.flags a b s).setReg k r (op.result a b)).finish nx c) k r (op.result a b) := by
  refine ⟨?_, fun _ => by simp, by simp [SameControl]⟩
  simpa using onlyRegisters_setMulti s.regs k r (op.result a b) h

/-- The end of an instruction as the statements say it. -/
theorem endsAs_of_target (nx : Next) {w : Nat} (s t : State) (v : BitVec w)
    (h : t.pc = nx.target s.pc (v != 0#w) t.psw) : EndsAs nx s t v := by
  cases nx <;> simp_all [EndsAs, Next.target, Psw.cond]

/-- What follows a part that stops, stops so. -/
theorem stopsAs_bind {α : Type} (x : Res α) (f : α → Res State) : StopsAs x (Res.bind x f) :=
  ⟨fun _ h => by rw [h]; rfl, fun _ h => by rw [h]; rfl⟩

/-- A part that answers stops nothing: what stops after it stops the whole so. -/
theorem stopsAs_bind_next {α β : Type} {x : Res α} {a : α} (h : x = .next a) {y : Res β} {f : α → Res State}
    (hy : StopsAs y (f a)) : StopsAs y (Res.bind x f) := by rw [h]; exact hy

/-- A store that reaches a word that does not exist is stuck. -/
theorem storeWords_missing {a : Word} {vs : List Word} {s : State}
    (h : ∃ k < vs.length, s.launched (a + BitVec.ofNat 16 k) = false) :
    storeWords a vs s = .fault .outsideLaunchMemory := by
  induction vs generalizing a s with
  | nil => obtain ⟨k, hk, -⟩ := h; simp at hk
  | cons v vs ih =>
    obtain ⟨k, hk, hl⟩ := h
    unfold storeWords storeWord
    split
    · refine ih ?_
      cases k with
      | zero => simp_all
      | succ k =>
        refine ⟨k, by simpa using hk, ?_⟩
        rw [State.launched_mem, ← hl]
        congr 1
        rw [BitVec.add_assoc, Nat.add_comm k 1, BitVec.ofNat_add]
        rfl
    · rfl

end Sys2Proof.Machine
end

