-- ==== Sys2Proof/Laws/Frames.lean ====
section
/-! SUPPORT. What every row but a few leaves alone: the mode, the latches, the run state, the environment's part of the state,
the canonical form of memory, and an overflow history of 1. -/

namespace Sys2Proof.Machine

/-- The frame shared by all rows but those of `reachesControl`. -/
structure Tame (s t : State) : Prop where
  /-- The memory keeps its canonical form (R60). -/
  wf : s.mem.wf → t.mem.wf
  /-- Latches, run state and environment (R35, R40). -/
  control : SameControl s t
  /-- IM, PV, GRB, OM (R32-R34). -/
  mode : SameMode s.psw t.psw
  /-- OH is not cleared (R31). -/
  history : s.psw.oh = true → t.psw.oh = true

/-- The rows whose effect reaches latches, run state or environment, or replaces PS. -/
def reachesControl : Instr → Bool
  | .rex _ | .rmi | .hlt | .sie _ | .sia _ | .sir _ | .rie _ | .ria _ | .rir _ | .car _ | .cir _ | .oci _ _ _ | .odi _ _ _ => true
  | _ => false

/-- Any write of registers and pc is tame. -/
theorem Tame.regs_pc {s t : State} (h : Tame s t) (g : Regs) (p : Word) : Tame s { t with regs := g, pc := p } :=
  ⟨h.wf, h.control, h.mode, h.history⟩

/-- A state is tame from itself. -/
theorem Tame.rfl {s : State} : Tame s s := ⟨id, by simp [SameControl], by simp [SameMode], id⟩

/-- A write of a word of memory is tame. -/
theorem Tame.writeWord {s t : State} (h : Tame s t) (a v : Word) : Tame s { t with mem := t.mem.writeWord a v } :=
  ⟨fun w => Memory.wf_writeWord _ _ _ (h.wf w), h.control, h.mode, h.history⟩

/-- A write of consecutive words of memory is tame. -/
theorem Tame.writeWords {s t : State} (h : Tame s t) (a : Word) (vs : List Word) :
    Tame s { t with mem := t.mem.writeWords a vs } :=
  ⟨fun w => Memory.wf_writeWords _ _ _ (h.wf w), h.control, h.mode, h.history⟩

/-- A change of the codes that keeps an overflow history of 1 is tame. -/
theorem Tame.codes {s : State} (p : Psw) (d : Nat) (h : SameMode s.psw p) (h' : s.psw.oh = true → p.oh = true) :
    Tame s { s with psw := p, draws := d } :=
  ⟨id, by simp [SameControl], h, h'⟩

/-- The codes of every operation are tame. -/
theorem Tame.flags {w : Nat} (op : Alu) (a b : BitVec w) (s : State) : Tame s (op.flags a b s) := by
  cases op <;> first
    | exact Tame.rfl
    | exact Tame.codes _ _ (by simp [SameMode]) (by simp +contextual)

theorem toRegister_tame {k : Width} {op : Alu} {r : Reg} {src : Src k} {nx : Next} {s t : State}
    (h : toRegister k op r src nx s = .next t) : Tame s t := by
  obtain ⟨-, b, -, rfl⟩ := toRegister_eq_next.mp h
  exact (Tame.flags op _ b s).regs_pc _ _

theorem toMemory_tame {op : Alu} {o : MemOperand} {src : Src .single} {nx : Next} {s t : State}
    (h : toMemory op o src nx s = .next t) : Tame s t := by
  obtain ⟨b, ea, a, -, -, -, rfl⟩ := toMemory_eq_next.mp h
  have := ((Tame.flags op a b s).writeWord ea (op.result a b)).regs_pc
  simp only [Alu.flags_mem] at this
  exact this _ _

theorem inspect_tame {k : Width} {op : Alu} {x y : Src k} {nx : Next} {s t : State}
    (h : inspect k op x y nx s = .next t) : Tame s t := by
  obtain ⟨a, b, -, -, rfl⟩ := inspect_eq_next.mp h
  exact (Tame.flags op a b s).regs_pc _ _

theorem storeRegister_tame {k : Width} {o : MemOperand} {r : Reg} {n : Nat} {s t : State}
    (h : storeRegister k o r n s = .next t) : Tame s t := by
  obtain ⟨-, ea, -, -, rfl⟩ := storeRegister_eq_next.mp h
  exact (Tame.rfl.writeWords _ _).regs_pc _ _

theorem loadFile_tame {o : MemOperand} {r : Reg} {n : Nat} {s t : State} (h : loadFile o r n s = .next t) : Tame s t := by
  obtain ⟨-, ea, vs, -, -, rfl⟩ := loadFile_eq_next.mp h
  exact Tame.rfl.regs_pc _ _

theorem storeFile_tame {o : MemOperand} {r : Reg} {n : Nat} {s t : State} (h : storeFile o r n s = .next t) : Tame s t := by
  obtain ⟨-, ea, -, -, rfl⟩ := storeFile_eq_next.mp h
  exact (Tame.rfl.writeWords _ _).regs_pc _ _

theorem shift_tame {k : Width} {kind : ShiftKind} {r : Reg} {c : Nibble} {s t : State} (h : shift k kind r c s = .next t) :
    Tame s t := by
  obtain ⟨-, rfl⟩ := shift_eq_next.mp h
  exact (Tame.codes _ _ (by simp [SameMode]) (by simp +contextual)).regs_pc _ _

theorem hopIf_tame {b : Bool} {n : BitVec 7} {s t : State} (h : hopIf b n s = .next t) : Tame s t := by
  obtain ⟨-, rfl⟩ := hopIf_eq_next.mp h
  exact Tame.rfl.regs_pc _ _

theorem branchIndexedIf_tame {b : Bool} {x : Reg} {s t : State} (h : branchIndexedIf b x s = .next t) : Tame s t := by
  obtain ⟨-, rfl⟩ := branchIndexedIf_eq_next.mp h
  exact Tame.rfl.regs_pc _ _

/-- A link writes a register or nothing. -/
theorem State.link_eq (s : State) (r : Reg) (n : Nat) : ∃ g, s.link r n = { s with regs := g } := by
  unfold State.link
  split
  · exact ⟨s.regs, by cases s; rfl⟩
  · exact ⟨_, rfl⟩

theorem branchLinkIf_tame {b : Bool} {r : Reg} {a : Word} {s t : State} (h : branchLinkIf b r a s = .next t) : Tame s t := by
  obtain ⟨g, e⟩ := s.link_eq r 2
  rw [branchLinkIf_eq_next, e] at h
  split at h <;> (subst h; exact Tame.rfl.regs_pc _ _)

theorem multiply_tame {r : Reg} {src : Src .single} {n : Nat} {s t : State} (h : multiply r src n s = .next t) : Tame s t := by
  obtain ⟨p, b, -, -, rfl⟩ := multiply_eq_next.mp h
  exact (Tame.codes _ _ (by simp [SameMode]) (by simp +contextual)).regs_pc _ _

theorem divide_tame {r : Reg} {src : Src .single} {n : Nat} {s t : State} (h : divide r src n s = .next t) : Tame s t := by
  obtain ⟨p, b, -, -, ⟨q, m, -, rfl⟩ | ⟨-, rfl⟩⟩ := divide_eq_next.mp h
  · exact (Tame.codes _ _ (by simp [SameMode]) (by simp)).regs_pc _ _
  · exact (Tame.codes _ _ (by simp [SameMode]) (by simp)).regs_pc _ _

/-- The end of a floating-point row is tame: it leaves OH alone. -/
theorem floatResult_tame {k : Width} {r : Reg} {x : FpResult k.bits} {n : Nat} {s : State} : Tame s (floatResult k r x n s) :=
  (Tame.codes (d := s.draws) _ (by simp [SameMode]) (by simp)).regs_pc _ _

/-- The rows whose body no row table holds, and that are tame all the same. -/
def tameAlone : Instr → Bool
    | .lbx _ _ | .sbx _ _ | .sti _ _ | .mlr _ _ | .mbr _ _ | .mur _ _ | .mbl _ _ | .ibr _ _ | .irm _ _ | .irr _ _ | .hop _
    | .blm _ _ | .bli _ | .blx _ _ | .ess _ _ | .esd _ _ | .cdie _ _ | .cfdi _ _ | .coff _ _ | .nop | .lcie _ | .lcia _
    | .lcip _ | .lccc _ | .lcps _ | .lcpr _ | .sccc _ | .ldam _ _ | .stan _ _ | .isi _ _ _ | .idi _ _ _ => true
    | _ => false

theorem tameAlone_tame {i : Instr} {s t : State} (hi : tameAlone i = true) (h : exec i s = .next t) : Tame s t := by
  have byte : ∀ {a d r q}, moveByte a d r q s = .next t → Tame s t := fun h => by
    obtain ⟨-, -, u, rfl, rfl⟩ := moveByte_eq_next.mp h
    split <;> exact (Tame.codes _ _ (by simp [SameMode]) (by simp +contextual)).regs_pc _ _
  have control : ∀ {r v}, loadControl r v s = .next t → Tame s t := fun h => by
    obtain ⟨-, rfl⟩ := loadControl_eq_next.mp h
    exact Tame.rfl.regs_pc _ _
  have sign : ∀ {k w r q}, extendSign k w r q s = .next t → Tame s t := fun h => by
    obtain ⟨-, -, rfl⟩ := extendSign_eq_next.mp h
    exact (Tame.codes _ _ (by simp [SameMode]) (by simp +contextual)).regs_pc _ _
  have conv : ∀ {k f r q}, convert k f r q s = .next t → Tame s t := fun h => by
    obtain ⟨-, -, rfl⟩ := convert_eq_next.mp h
    exact floatResult_tame
  cases i <;> first
    | exact absurd hi (by decide)
    | exact absurd hi Bool.false_ne_true
    | exact byte h
    | exact control h
    | exact sign h
    | exact conv h
    | exact hopIf_tame h
    | skip
  case lbx r x =>
    obtain ⟨-, a, left, v, -, -, rfl⟩ := loadByte_eq_next.mp (show loadByte r x s = .next t from h)
    exact (Tame.codes (d := s.draws) _ (by simp [SameMode]) (by simp)).regs_pc _ _
  case sbx r x =>
    obtain ⟨-, a, left, v, -, -, w, -, rfl⟩ := storeByte_eq_next.mp (show storeByte r x s = .next t from h)
    exact (Tame.rfl.writeWord _ _).regs_pc _ _
  case sti r v =>
    obtain ⟨-, -, rfl⟩ := storeImmediate_eq_next.mp (show storeImmediate r s = .next t from h)
    exact (Tame.rfl.writeWord _ _).regs_pc _ _
  case ibr r q =>
    obtain ⟨-, -, rfl⟩ := interchangeBytes_eq_next.mp (show interchangeBytes r q s = .next t from h)
    exact (Tame.codes (d := s.draws) _ (by simp [SameMode]) (by simp)).regs_pc _ _
  case irm r m =>
    obtain ⟨-, ea, v, -, -, rfl⟩ := interchangeMemory_eq_next.mp (show interchangeMemory r m s = .next t from h)
    exact (Tame.rfl.writeWord _ _).regs_pc _ _
  case irr r q =>
    obtain ⟨-, -, rfl⟩ := interchangeRegisters_eq_next.mp (show interchangeRegisters r q s = .next t from h)
    exact Tame.rfl.regs_pc _ _
  case blm r m =>
    obtain ⟨ea, -, e⟩ := Res.bind_eq_next.mp (show branchLinkLong r m s = .next t from h)
    obtain ⟨g, e'⟩ := s.link_eq r 2
    cases e
    rw [e']
    exact Tame.rfl.regs_pc _ _
  case blx r x =>
    obtain ⟨a, -, e⟩ := Res.bind_eq_next.mp (show branchLinkIndexed r x s = .next t from h)
    obtain ⟨g, e'⟩ := s.link_eq r 1
    cases e
    rw [e']
    exact Tame.rfl.regs_pc _ _
  case nop => cases h; exact Tame.rfl.regs_pc _ _
  case sccc r =>
    obtain ⟨v, -, e⟩ := Res.bind_eq_next.mp (show selectCodes r s = .next t from h)
    cases e
    exact (Tame.codes (d := s.draws) _ (by simp [SameMode]) (by simp)).regs_pc _ _
  case ldam r p =>
    obtain ⟨-, h⟩ := privileged_eq_next.mp (show privileged s (tentative (loadActual r p s)) = .next t from h)
    obtain ⟨-, -, h⟩ := Res.bind_eq_next.mp (show loadActual r p s = .next t from h)
    obtain ⟨pa, -, h⟩ := Res.bind_eq_next.mp h
    obtain ⟨v, -, e⟩ := Res.bind_eq_next.mp h
    cases e
    exact (Tame.codes (d := s.draws) _ (by simp [SameMode]) (by simp)).regs_pc _ _
  case stan r p =>
    obtain ⟨-, h⟩ := privileged_eq_next.mp (show privileged s (tentative (storeActual r p s)) = .next t from h)
    obtain ⟨v, -, h⟩ := Res.bind_eq_next.mp (show storeActual r p s = .next t from h)
    obtain ⟨pa, -, h⟩ := Res.bind_eq_next.mp h
    obtain ⟨u, hu, e⟩ := Res.bind_eq_next.mp h
    obtain ⟨a, -, -, rfl⟩ := physWrite_eq_next.mp hu
    cases e
    exact (Tame.rfl.writeWord _ _).regs_pc _ _
  case isi j r u =>
    obtain ⟨-, h⟩ := privileged_eq_next.mp (show privileged s (inputStatus j r u s) = .next t from h)
    obtain ⟨-, -, e⟩ := Res.bind_eq_next.mp h
    cases e
    exact (Tame.codes _ _ (by simp [SameMode]) (by simp +contextual)).regs_pc _ _
  case idi j r u =>
    obtain ⟨-, h⟩ := privileged_eq_next.mp (show privileged s (inputData j r u s) = .next t from h)
    obtain ⟨-, -, e⟩ := Res.bind_eq_next.mp h
    cases e
    exact (Tame.codes _ _ (by simp [SameMode]) (by simp)).regs_pc _ _

/-- Every row but those that reach latches, run state or environment is tame. -/
theorem exec_tame {i : Instr} {s t : State} (hc : reachesControl i = false) (h : exec i s = .next t) : Tame s t := by
  rcases h0 : registerRow i with _ | ⟨op, row⟩
  case some => rw [exec_registerRow h0] at h; exact toRegister_tame h
  rcases h1 : memoryRow i with _ | ⟨op, row⟩
  case some => rw [exec_memoryRow h1] at h; exact toMemory_tame h
  rcases h2 : inspectRow i with _ | ⟨op, row⟩
  case some => rw [exec_inspectRow h2] at h; exact inspect_tame h
  rcases h3 : storeRow i with _ | row
  case some => rw [exec_storeRow h3] at h; exact storeRegister_tame h
  rcases h4 : loadFileRow i with _ | row
  case some => rw [exec_loadFileRow h4] at h; exact loadFile_tame h
  rcases h5 : storeFileRow i with _ | row
  case some => rw [exec_storeFileRow h5] at h; exact storeFile_tame h
  rcases h6 : shiftRow i with _ | row
  case some => rw [exec_shiftRow h6] at h; exact shift_tame h
  rcases h7 : hopRow i with _ | row
  case some => rw [exec_hopRow h7] at h; exact hopIf_tame h
  rcases h8 : indexedBranchRow i with _ | row
  case some => rw [exec_indexedBranchRow h8] at h; exact branchIndexedIf_tame h
  rcases h9 : linkBranchRow i with _ | row
  case some => rw [exec_linkBranchRow h9] at h; exact branchLinkIf_tame h
  rcases h10 : multiplyRow i with _ | row
  case some => rw [exec_multiplyRow h10] at h; exact multiply_tame h
  rcases h11 : divideRow i with _ | row
  case some => rw [exec_divideRow h11] at h; exact divide_tame h
  rcases h12 : floatRow i with _ | row
  case some =>
    rw [exec_floatRow h12] at h
    split at h
    · cases h
    · obtain ⟨a, -, h⟩ := Res.bind_eq_next.mp h
      obtain ⟨b, -, h⟩ := Res.bind_eq_next.mp h
      cases h
      exact floatResult_tame
  rcases h13 : refusedRow i with _ | r
  case some =>
    rw [exec_refusedRow h13] at h
    split at h
    · exact absurd (privileged_eq_next.mp h).2 (by simp)
    · cases h
  refine tameAlone_tame ?_ h
  cases i <;> first | rfl | contradiction

end Sys2Proof.Machine
end

