-- ==== Sys2Proof/Tests/Slice0.lean ====
section
/-! SUPPORT. Tests: what WellFormed refuses; one written-out word for every constructor with an encoding; a few single steps from
the examples of spec/40 to 49 and the vectors of spec/95; and, for every statement of Certificates/Slice0 with hypotheses,
operands and a state that meet them. Expected values are the spec's. -/

namespace Sys2Proof.Tests

open Sys2Proof.Machine

/-! ### Well-formedness -/

theorem test_wellFormed_refuses_odd_pair : Instr.WellFormed (.ldmd 5#4 ⟨false, 0#3, 0x200#16⟩) = false := by decide
theorem test_wellFormed_refuses_odd_first_pair : Instr.WellFormed (.far 5#4 6#4) = false := by decide
theorem test_wellFormed_refuses_odd_second_pair : Instr.WellFormed (.far 6#4 5#4) = false := by decide
theorem test_wellFormed_refuses_odd_address_pair : Instr.WellFormed (.ldam 2#4 5#4) = false := by decide
theorem test_wellFormed_refuses_zomp_zero : Instr.WellFormed (.zomp 0#4) = false := by decide
theorem test_wellFormed_refuses_rows_without_encoding :
    (Instr.WellFormed (.cri 2#4 0#16) || Instr.WellFormed (.sccc 2#4) || Instr.WellFormed .nop) = false := by decide
theorem test_wellFormed_admits_register_zero : Instr.WellFormed (.trr 0#4 3#4) = true := by decide

/-! ### Decoding

The words are the examples of the instruction's own rule, or written from its encoding line where the rule has no example. -/

theorem test_decode_move_1 :
    decodeWords [0x659D#16] = .ok (.lbr 9#4 13#4, []) ∧
    decodeWords [0x759D#16, 0x1234#16] = .ok (.lbrb 9#4 13#4 0x1234#16, []) ∧
    decodeWords [0xAE95#16] = .ok (.lbx 9#4 5#4, []) ∧
    decodeWords [0xE59D#16, 0x1234#16] = .ok (.ldm 9#4 ⟨true, 5#3, 0x1234#16⟩, []) ∧
    decodeWords [0xCDBD#16, 0x1234#16] = .ok (.ldmd 10#4 ⟨true, 5#3, 0x1234#16⟩, []) ∧
    decodeWords [0xED90#16, 0x1234#16] = .ok (.ldt 9#4 0x1234#16, []) ∧
    decodeWords [0xF59B#16] = .ok (.lds 9#4 11#4, []) ∧
    decodeWords [0xFD95#16] = .ok (.ldx 9#4 5#4, []) ∧
    decodeWords [0x8DB5#16] = .ok (.ldxd 10#4 5#4, []) ∧
    decodeWords [0xA49D#16, 0x1234#16] = .ok (.lfm 9#4 ⟨true, 5#3, 0x1234#16⟩, []) ∧
    decodeWords [0xB49B#16] = .ok (.lfs 9#4 11#4, []) ∧
    decodeWords [0xBC95#16] = .ok (.lfx 9#4 5#4, []) ∧
    decodeWords [0xAF95#16] = .ok (.sbx 9#4 5#4, []) ∧
    decodeWords [0xE69D#16, 0x1234#16] = .ok (.stm 9#4 ⟨true, 5#3, 0x1234#16⟩, []) ∧
    decodeWords [0xCEBD#16, 0x1234#16] = .ok (.stmd 10#4 ⟨true, 5#3, 0x1234#16⟩, []) ∧
    decodeWords [0xEE90#16, 0x1234#16] = .ok (.sti 9#4 0x1234#16, []) := by
  refine ⟨?_, ?_, ?_, ?_, ?_, ?_, ?_, ?_, ?_, ?_, ?_, ?_, ?_, ?_, ?_, ?_⟩ <;> rfl

theorem test_decode_move_2 :
    decodeWords [0xF69B#16] = .ok (.sts 9#4 11#4, []) ∧
    decodeWords [0xFE95#16] = .ok (.stx 9#4 5#4, []) ∧
    decodeWords [0x8EB5#16] = .ok (.stxd 10#4 5#4, []) ∧
    decodeWords [0xA59D#16, 0x1234#16] = .ok (.sfm 9#4 ⟨true, 5#3, 0x1234#16⟩, []) ∧
    decodeWords [0xB59B#16] = .ok (.sfs 9#4 11#4, []) ∧
    decodeWords [0xBD95#16] = .ok (.sfx 9#4 5#4, []) ∧
    decodeWords [0xBA9D#16, 0x1234#16, 0x5678#16] = .ok (.plm 9#4 ⟨true, 5#3, 0x1234#16⟩ 0x5678#16, []) ∧
    decodeWords [0xBB9D#16, 0x1234#16, 0x5678#16] = .ok (.psm 9#4 ⟨true, 5#3, 0x1234#16⟩ 0x5678#16, []) ∧
    decodeWords [0x0C96#16] = .ok (.mlr 9#4 6#4, []) ∧
    decodeWords [0x0896#16] = .ok (.mbr 9#4 6#4, []) ∧
    decodeWords [0x0B96#16] = .ok (.mur 9#4 6#4, []) ∧
    decodeWords [0x0996#16] = .ok (.mbl 9#4 6#4, []) ∧
    decodeWords [0x0A96#16] = .ok (.ibr 9#4 6#4, []) ∧
    decodeWords [0xB69D#16, 0x1234#16] = .ok (.irm 9#4 ⟨true, 5#3, 0x1234#16⟩, []) ∧
    decodeWords [0xB796#16] = .ok (.irr 9#4 6#4, []) ∧
    decodeWords [0x6D96#16] = .ok (.trr 9#4 6#4, []) := by
  refine ⟨?_, ?_, ?_, ?_, ?_, ?_, ?_, ?_, ?_, ?_, ?_, ?_, ?_, ?_, ?_, ?_⟩ <;> rfl

theorem test_decode_move_3 :
    decodeWords [0x7D96#16, 0x1234#16] = .ok (.trrb 9#4 6#4 0x1234#16, []) ∧
    decodeWords [0xCDAC#16] = .ok (.trrd 10#4 12#4, []) ∧
    decodeWords [0x8D8C#16] = .ok (.trrq 8#4 12#4, []) := by
  refine ⟨?_, ?_, ?_⟩ <;> rfl

theorem test_decode_shift_1 :
    decodeWords [0x2B9E#16] = .ok (.ras 9#4 14#4, []) ∧
    decodeWords [0x2AAE#16] = .ok (.rad 10#4 14#4, []) ∧
    decodeWords [0x2A9E#16] = .ok (.raq 8#4 14#4, []) ∧
    decodeWords [0x2F9E#16] = .ok (.las 9#4 14#4, []) ∧
    decodeWords [0x2EAE#16] = .ok (.lad 10#4 14#4, []) ∧
    decodeWords [0x2E9E#16] = .ok (.laq 8#4 14#4, []) ∧
    decodeWords [0x299E#16] = .ok (.rls 9#4 14#4, []) ∧
    decodeWords [0x28AE#16] = .ok (.rld 10#4 14#4, []) ∧
    decodeWords [0x289E#16] = .ok (.rlq 8#4 14#4, []) ∧
    decodeWords [0x2D9E#16] = .ok (.lls 9#4 14#4, []) ∧
    decodeWords [0x2CAE#16] = .ok (.lld 10#4 14#4, []) ∧
    decodeWords [0x2C9E#16] = .ok (.llq 8#4 14#4, []) ∧
    decodeWords [0x0F96#16] = .ok (.lrs 9#4 6#4, []) ∧
    decodeWords [0x679D#16] = .ok (.gmr 9#4 13#4, []) ∧
    decodeWords [0x779D#16, 0x1234#16] = .ok (.gmrb 9#4 13#4 0x1234#16, []) := by
  refine ⟨?_, ?_, ?_, ?_, ?_, ?_, ?_, ?_, ?_, ?_, ?_, ?_, ?_, ?_, ?_⟩ <;> rfl

theorem test_decode_logical_1 :
    decodeWords [0x629D#16] = .ok (.zbr 9#4 13#4, []) ∧
    decodeWords [0x729D#16, 0x1234#16] = .ok (.zbrb 9#4 13#4 0x1234#16, []) ∧
    decodeWords [0x81DD#16, 0x1234#16] = .ok (.zbmm 13#4 ⟨true, 5#3, 0x1234#16⟩, []) ∧
    decodeWords [0x85DD#16, 0x1234#16, 0x5678#16] = .ok (.zmmb 13#4 ⟨true, 5#3, 0x1234#16⟩ 0x5678#16, []) ∧
    decodeWords [0x91DB#16] = .ok (.zbsm 13#4 11#4, []) ∧
    decodeWords [0x95DB#16, 0x1234#16] = .ok (.zbsb 13#4 11#4 0x1234#16, []) ∧
    decodeWords [0x99D5#16] = .ok (.zbxm 13#4 5#4, []) ∧
    decodeWords [0x9DD5#16, 0x1234#16] = .ok (.zbxb 13#4 5#4 0x1234#16, []) ∧
    decodeWords [0x6A96#16] = .ok (.etr 9#4 6#4, []) ∧
    decodeWords [0x7A96#16, 0x1234#16] = .ok (.etrb 9#4 6#4 0x1234#16, []) ∧
    decodeWords [0xC19D#16, 0x1234#16] = .ok (.etmm 9#4 ⟨true, 5#3, 0x1234#16⟩, []) ∧
    decodeWords [0xC59D#16, 0x1234#16, 0x5678#16] = .ok (.etmb 9#4 ⟨true, 5#3, 0x1234#16⟩ 0x5678#16, []) ∧
    decodeWords [0xD19B#16] = .ok (.etsm 9#4 11#4, []) ∧
    decodeWords [0xD59B#16, 0x1234#16] = .ok (.etsb 9#4 11#4 0x1234#16, []) ∧
    decodeWords [0xD995#16] = .ok (.etxm 9#4 5#4, []) ∧
    decodeWords [0xDD95#16, 0x1234#16] = .ok (.etxb 9#4 5#4 0x1234#16, []) := by
  refine ⟨?_, ?_, ?_, ?_, ?_, ?_, ?_, ?_, ?_, ?_, ?_, ?_, ?_, ?_, ?_, ?_⟩ <;> rfl

theorem test_decode_logical_2 :
    decodeWords [0xE29D#16, 0x1234#16] = .ok (.etm 9#4 ⟨true, 5#3, 0x1234#16⟩, []) ∧
    decodeWords [0xEA90#16, 0x1234#16] = .ok (.eti 9#4 0x1234#16, []) ∧
    decodeWords [0xF29B#16] = .ok (.ets 9#4 11#4, []) ∧
    decodeWords [0xFA95#16] = .ok (.etx 9#4 5#4, []) ∧
    decodeWords [0x639D#16] = .ok (.obr 9#4 13#4, []) ∧
    decodeWords [0x739D#16, 0x1234#16] = .ok (.obrb 9#4 13#4 0x1234#16, []) ∧
    decodeWords [0x82DD#16, 0x1234#16] = .ok (.obmm 13#4 ⟨true, 5#3, 0x1234#16⟩, []) ∧
    decodeWords [0x92DB#16] = .ok (.obsm 13#4 11#4, []) ∧
    decodeWords [0x9AD5#16] = .ok (.obxm 13#4 5#4, []) ∧
    decodeWords [0x6B96#16] = .ok (.orr 9#4 6#4, []) ∧
    decodeWords [0x7B96#16, 0x1234#16] = .ok (.orrb 9#4 6#4 0x1234#16, []) ∧
    decodeWords [0xC29D#16, 0x1234#16] = .ok (.ormm 9#4 ⟨true, 5#3, 0x1234#16⟩, []) ∧
    decodeWords [0xD29B#16] = .ok (.orsm 9#4 11#4, []) ∧
    decodeWords [0xDA95#16] = .ok (.orxm 9#4 5#4, []) ∧
    decodeWords [0xE39D#16, 0x1234#16] = .ok (.orm 9#4 ⟨true, 5#3, 0x1234#16⟩, []) ∧
    decodeWords [0xEB90#16, 0x1234#16] = .ok (.ori 9#4 0x1234#16, []) := by
  refine ⟨?_, ?_, ?_, ?_, ?_, ?_, ?_, ?_, ?_, ?_, ?_, ?_, ?_, ?_, ?_, ?_⟩ <;> rfl

theorem test_decode_logical_3 :
    decodeWords [0xF39B#16] = .ok (.ors 9#4 11#4, []) ∧
    decodeWords [0xFB95#16] = .ok (.orx 9#4 5#4, []) ∧
    decodeWords [0x649D#16] = .ok (.xbr 9#4 13#4, []) ∧
    decodeWords [0x749D#16, 0x1234#16] = .ok (.xbrb 9#4 13#4 0x1234#16, []) ∧
    decodeWords [0x6C96#16] = .ok (.xor 9#4 6#4, []) ∧
    decodeWords [0x7C96#16, 0x1234#16] = .ok (.xorb 9#4 6#4 0x1234#16, []) ∧
    decodeWords [0xE49D#16, 0x1234#16] = .ok (.xom 9#4 ⟨true, 5#3, 0x1234#16⟩, []) ∧
    decodeWords [0xEC90#16, 0x1234#16] = .ok (.xoi 9#4 0x1234#16, []) ∧
    decodeWords [0xF49B#16] = .ok (.xos 9#4 11#4, []) ∧
    decodeWords [0xFC95#16] = .ok (.xox 9#4 5#4, []) ∧
    decodeWords [0x0D96#16] = .ok (.tor 9#4 6#4, []) := by
  refine ⟨?_, ?_, ?_, ?_, ?_, ?_, ?_, ?_, ?_, ?_, ?_⟩ <;> rfl

theorem test_decode_compare_test_1 :
    decodeWords [0x87DD#16, 0x1234#16, 0x5678#16, 0x9ABC#16] = .ok (.cbmb 13#4 ⟨true, 5#3, 0x1234#16⟩ 0x5678#16 0x9ABC#16, []) ∧
    decodeWords [0x97DB#16, 0x1234#16, 0x5678#16] = .ok (.cbsb 13#4 11#4 0x1234#16 0x5678#16, []) ∧
    decodeWords [0x9FD5#16, 0x1234#16, 0x5678#16] = .ok (.cbxb 13#4 5#4 0x1234#16 0x5678#16, []) ∧
    decodeWords [0x6E96#16] = .ok (.crr 9#4 6#4, []) ∧
    decodeWords [0xCFAC#16] = .ok (.crrd 10#4 12#4, []) ∧
    decodeWords [0xC39D#16, 0x1234#16] = .ok (.crm 9#4 ⟨true, 5#3, 0x1234#16⟩, []) ∧
    decodeWords [0xC79D#16, 0x1234#16, 0x5678#16, 0x9ABC#16] = .ok (.crmb 9#4 ⟨true, 5#3, 0x1234#16⟩ 0x5678#16 0x9ABC#16, []) ∧
    decodeWords [0xCFBD#16, 0x1234#16] = .ok (.crmd 10#4 ⟨true, 5#3, 0x1234#16⟩, []) ∧
    decodeWords [0xD39B#16] = .ok (.crs 9#4 11#4, []) ∧
    decodeWords [0xD79B#16, 0x1234#16, 0x5678#16] = .ok (.crsb 9#4 11#4 0x1234#16 0x5678#16, []) ∧
    decodeWords [0xDB95#16] = .ok (.crx 9#4 5#4, []) ∧
    decodeWords [0xDF95#16, 0x1234#16, 0x5678#16] = .ok (.crxb 9#4 5#4 0x1234#16 0x5678#16, []) ∧
    decodeWords [0x669D#16] = .ok (.tbr 9#4 13#4, []) ∧
    decodeWords [0x769D#16, 0x1234#16] = .ok (.tbrb 9#4 13#4 0x1234#16, []) ∧
    decodeWords [0x83DD#16, 0x1234#16] = .ok (.tbmm 13#4 ⟨true, 5#3, 0x1234#16⟩, []) ∧
    decodeWords [0x86DD#16, 0x1234#16, 0x5678#16] = .ok (.tbmb 13#4 ⟨true, 5#3, 0x1234#16⟩ 0x5678#16, []) := by
  refine ⟨?_, ?_, ?_, ?_, ?_, ?_, ?_, ?_, ?_, ?_, ?_, ?_, ?_, ?_, ?_, ?_⟩ <;> rfl

theorem test_decode_compare_test_2 :
    decodeWords [0x93DB#16] = .ok (.tbsm 13#4 11#4, []) ∧
    decodeWords [0x96DB#16, 0x1234#16] = .ok (.tbsb 13#4 11#4 0x1234#16, []) ∧
    decodeWords [0x9BD5#16] = .ok (.tbxm 13#4 5#4, []) ∧
    decodeWords [0x9ED5#16, 0x1234#16] = .ok (.tbxb 13#4 5#4 0x1234#16, []) ∧
    decodeWords [0x7E96#16, 0x1234#16] = .ok (.tek 9#4 6#4 0x1234#16, []) ∧
    decodeWords [0xC69D#16, 0x1234#16, 0x5678#16] = .ok (.trmb 9#4 ⟨true, 5#3, 0x1234#16⟩ 0x5678#16, []) ∧
    decodeWords [0xD69B#16, 0x1234#16] = .ok (.trsb 9#4 11#4 0x1234#16, []) ∧
    decodeWords [0xDE95#16, 0x1234#16] = .ok (.trxb 9#4 5#4 0x1234#16, []) := by
  refine ⟨?_, ?_, ?_, ?_, ?_, ?_, ?_, ?_⟩ <;> rfl

theorem test_decode_branch_1 :
    decodeWords [0xF72B#16] = .ok (.hop 43#7, []) ∧
    decodeWords [0xA9AB#16] = .ok (.hzr 43#7, []) ∧
    decodeWords [0xA92B#16] = .ok (.hzs 43#7, []) ∧
    decodeWords [0xA8AB#16] = .ok (.hnr 43#7, []) ∧
    decodeWords [0xA82B#16] = .ok (.hns 43#7, []) ∧
    decodeWords [0xABAB#16] = .ok (.hcr 43#7, []) ∧
    decodeWords [0xAB2B#16] = .ok (.hcs 43#7, []) ∧
    decodeWords [0xAAAB#16] = .ok (.hor 43#7, []) ∧
    decodeWords [0xAA2B#16] = .ok (.hos 43#7, []) ∧
    decodeWords [0xAC2B#16] = .ok (.hls 43#7, []) ∧
    decodeWords [0xAD2B#16] = .ok (.hle 43#7, []) ∧
    decodeWords [0xACAB#16] = .ok (.hge 43#7, []) ∧
    decodeWords [0xADAB#16] = .ok (.hgt 43#7, []) ∧
    decodeWords [0xA6AB#16] = .ok (.hnh 43#7, []) ∧
    decodeWords [0xA62B#16] = .ok (.hhi 43#7, []) ∧
    decodeWords [0x8F95#16] = .ok (.bxr 5#4, []) := by
  refine ⟨?_, ?_, ?_, ?_, ?_, ?_, ?_, ?_, ?_, ?_, ?_, ?_, ?_, ?_, ?_, ?_⟩ <;> rfl

theorem test_decode_branch_2 :
    decodeWords [0x8F15#16] = .ok (.bxs 5#4, []) ∧
    decodeWords [0x8F85#16] = .ok (.bxnr 5#4, []) ∧
    decodeWords [0x8F05#16] = .ok (.bxns 5#4, []) ∧
    decodeWords [0x8FB5#16] = .ok (.bxcr 5#4, []) ∧
    decodeWords [0x8F35#16] = .ok (.bxcs 5#4, []) ∧
    decodeWords [0x8FA5#16] = .ok (.bxor 5#4, []) ∧
    decodeWords [0x8F25#16] = .ok (.bxos 5#4, []) ∧
    decodeWords [0x8F45#16] = .ok (.bxls 5#4, []) ∧
    decodeWords [0x8F55#16] = .ok (.bxle 5#4, []) ∧
    decodeWords [0x8FC5#16] = .ok (.bxge 5#4, []) ∧
    decodeWords [0x8FD5#16] = .ok (.bxgt 5#4, []) ∧
    decodeWords [0x8FE5#16] = .ok (.bxnh 5#4, []) ∧
    decodeWords [0x8F65#16] = .ok (.bxhi 5#4, []) ∧
    decodeWords [0xE79D#16, 0x1234#16] = .ok (.blm 9#4 ⟨true, 5#3, 0x1234#16⟩, []) ∧
    decodeWords [0xEF90#16] = .ok (.bli 9#4, []) ∧
    decodeWords [0xFF95#16] = .ok (.blx 9#4 5#4, []) := by
  refine ⟨?_, ?_, ?_, ?_, ?_, ?_, ?_, ?_, ?_, ?_, ?_, ?_, ?_, ?_, ?_, ?_⟩ <;> rfl

theorem test_decode_branch_3 :
    decodeWords [0xF7AB#16] = .ok (.blt 43#7, []) ∧
    decodeWords [0xA799#16, 0x1234#16] = .ok (.blzr 9#4 0x1234#16, []) ∧
    decodeWords [0xA719#16, 0x1234#16] = .ok (.blzs 9#4 0x1234#16, []) ∧
    decodeWords [0xA789#16, 0x1234#16] = .ok (.blnr 9#4 0x1234#16, []) ∧
    decodeWords [0xA709#16, 0x1234#16] = .ok (.blns 9#4 0x1234#16, []) ∧
    decodeWords [0xA7B9#16, 0x1234#16] = .ok (.blcr 9#4 0x1234#16, []) ∧
    decodeWords [0xA739#16, 0x1234#16] = .ok (.blcs 9#4 0x1234#16, []) ∧
    decodeWords [0xA7A9#16, 0x1234#16] = .ok (.blor 9#4 0x1234#16, []) ∧
    decodeWords [0xA729#16, 0x1234#16] = .ok (.blos 9#4 0x1234#16, []) ∧
    decodeWords [0xA749#16, 0x1234#16] = .ok (.blls 9#4 0x1234#16, []) ∧
    decodeWords [0xA759#16, 0x1234#16] = .ok (.blle 9#4 0x1234#16, []) ∧
    decodeWords [0xA7C9#16, 0x1234#16] = .ok (.blge 9#4 0x1234#16, []) ∧
    decodeWords [0xA7D9#16, 0x1234#16] = .ok (.blgt 9#4 0x1234#16, []) ∧
    decodeWords [0xA7E9#16, 0x1234#16] = .ok (.blnh 9#4 0x1234#16, []) ∧
    decodeWords [0xA769#16, 0x1234#16] = .ok (.blhi 9#4 0x1234#16, []) := by
  refine ⟨?_, ?_, ?_, ?_, ?_, ?_, ?_, ?_, ?_, ?_, ?_, ?_, ?_, ?_, ?_⟩ <;> rfl

theorem test_decode_add_subtract_1 :
    decodeWords [0x609D#16] = .ok (.abr 9#4 13#4, []) ∧
    decodeWords [0x709D#16, 0x1234#16] = .ok (.abrb 9#4 13#4 0x1234#16, []) ∧
    decodeWords [0x80DD#16, 0x1234#16] = .ok (.abmm 13#4 ⟨true, 5#3, 0x1234#16⟩, []) ∧
    decodeWords [0x84DD#16, 0x1234#16, 0x5678#16] = .ok (.abmb 13#4 ⟨true, 5#3, 0x1234#16⟩ 0x5678#16, []) ∧
    decodeWords [0x90DB#16] = .ok (.absm 13#4 11#4, []) ∧
    decodeWords [0x94DB#16, 0x1234#16] = .ok (.absb 13#4 11#4 0x1234#16, []) ∧
    decodeWords [0x98D5#16] = .ok (.abxm 13#4 5#4, []) ∧
    decodeWords [0x9CD5#16, 0x1234#16] = .ok (.abxb 13#4 5#4 0x1234#16, []) ∧
    decodeWords [0x6896#16] = .ok (.adr 9#4 6#4, []) ∧
    decodeWords [0x7896#16, 0x1234#16] = .ok (.adrb 9#4 6#4 0x1234#16, []) ∧
    decodeWords [0x22AC#16] = .ok (.adrd 10#4 12#4, []) ∧
    decodeWords [0xC09D#16, 0x1234#16] = .ok (.admm 9#4 ⟨true, 5#3, 0x1234#16⟩, []) ∧
    decodeWords [0xC49D#16, 0x1234#16, 0x5678#16] = .ok (.admb 9#4 ⟨true, 5#3, 0x1234#16⟩ 0x5678#16, []) ∧
    decodeWords [0xD09B#16] = .ok (.adsm 9#4 11#4, []) ∧
    decodeWords [0xD49B#16, 0x1234#16] = .ok (.adsb 9#4 11#4 0x1234#16, []) ∧
    decodeWords [0xD895#16] = .ok (.adxm 9#4 5#4, []) := by
  refine ⟨?_, ?_, ?_, ?_, ?_, ?_, ?_, ?_, ?_, ?_, ?_, ?_, ?_, ?_, ?_, ?_⟩ <;> rfl

theorem test_decode_add_subtract_2 :
    decodeWords [0xDC95#16, 0x1234#16] = .ok (.adxb 9#4 5#4 0x1234#16, []) ∧
    decodeWords [0xE09D#16, 0x1234#16] = .ok (.adm 9#4 ⟨true, 5#3, 0x1234#16⟩, []) ∧
    decodeWords [0xCBBD#16, 0x1234#16] = .ok (.admd 10#4 ⟨true, 5#3, 0x1234#16⟩, []) ∧
    decodeWords [0xE890#16, 0x1234#16] = .ok (.adi 9#4 0x1234#16, []) ∧
    decodeWords [0xF09B#16] = .ok (.ads 9#4 11#4, []) ∧
    decodeWords [0xF895#16] = .ok (.adx 9#4 5#4, []) ∧
    decodeWords [0x619D#16] = .ok (.sbr 9#4 13#4, []) ∧
    decodeWords [0x719D#16, 0x1234#16] = .ok (.sbrb 9#4 13#4 0x1234#16, []) ∧
    decodeWords [0x6996#16] = .ok (.sur 9#4 6#4, []) ∧
    decodeWords [0x7996#16, 0x1234#16] = .ok (.surb 9#4 6#4 0x1234#16, []) ∧
    decodeWords [0xC9AC#16] = .ok (.surd 10#4 12#4, []) ∧
    decodeWords [0xE19D#16, 0x1234#16] = .ok (.sum 9#4 ⟨true, 5#3, 0x1234#16⟩, []) ∧
    decodeWords [0xC9BD#16, 0x1234#16] = .ok (.sumd 10#4 ⟨true, 5#3, 0x1234#16⟩, []) ∧
    decodeWords [0xE990#16, 0x1234#16] = .ok (.sui 9#4 0x1234#16, []) ∧
    decodeWords [0xF19B#16] = .ok (.sus 9#4 11#4, []) ∧
    decodeWords [0xF995#16] = .ok (.sux 9#4 5#4, []) := by
  refine ⟨?_, ?_, ?_, ?_, ?_, ?_, ?_, ?_, ?_, ?_, ?_, ?_, ?_, ?_, ?_, ?_⟩ <;> rfl

theorem test_decode_multiply_divide_1 :
    decodeWords [0x2096#16] = .ok (.mpr 9#4 6#4, []) ∧
    decodeWords [0xA2AC#16] = .ok (.mprd 10#4 12#4, []) ∧
    decodeWords [0xA09D#16, 0x1234#16] = .ok (.mpm 9#4 ⟨true, 5#3, 0x1234#16⟩, []) ∧
    decodeWords [0xA2BD#16, 0x1234#16] = .ok (.mpmd 10#4 ⟨true, 5#3, 0x1234#16⟩, []) ∧
    decodeWords [0xB09B#16] = .ok (.mps 9#4 11#4, []) ∧
    decodeWords [0xB895#16] = .ok (.mpx 9#4 5#4, []) ∧
    decodeWords [0x2196#16] = .ok (.dvr 9#4 6#4, []) ∧
    decodeWords [0xA38C#16] = .ok (.dvrd 8#4 12#4, []) ∧
    decodeWords [0xA19D#16, 0x1234#16] = .ok (.dvm 9#4 ⟨true, 5#3, 0x1234#16⟩, []) ∧
    decodeWords [0xA39D#16, 0x1234#16] = .ok (.dvmd 8#4 ⟨true, 5#3, 0x1234#16⟩, []) ∧
    decodeWords [0xB19B#16] = .ok (.dvs 9#4 11#4, []) ∧
    decodeWords [0xB995#16] = .ok (.dvx 9#4 5#4, []) ∧
    decodeWords [0x6F96#16] = .ok (.ttr 9#4 6#4, []) ∧
    decodeWords [0x7F96#16, 0x1234#16] = .ok (.ttrb 9#4 6#4 0x1234#16, []) ∧
    decodeWords [0x8AAC#16] = .ok (.ttrd 10#4 12#4, []) ∧
    decodeWords [0x8B8C#16] = .ok (.ttrq 8#4 12#4, []) := by
  refine ⟨?_, ?_, ?_, ?_, ?_, ?_, ?_, ?_, ?_, ?_, ?_, ?_, ?_, ?_, ?_, ?_⟩ <;> rfl

theorem test_decode_multiply_divide_2 :
    decodeWords [0x8CB6#16] = .ok (.ess 10#4 6#4, []) ∧
    decodeWords [0x8C8C#16] = .ok (.esd 8#4 12#4, []) := by
  refine ⟨?_, ?_⟩ <;> rfl

theorem test_decode_floating_1 :
    decodeWords [0x30AC#16] = .ok (.far 10#4 12#4, []) ∧
    decodeWords [0x348C#16] = .ok (.fard 8#4 12#4, []) ∧
    decodeWords [0x349C#16] = .ok (.farq 8#4 12#4, []) ∧
    decodeWords [0x38AD#16, 0x1234#16] = .ok (.fam 10#4 ⟨true, 5#3, 0x1234#16⟩, []) ∧
    decodeWords [0x3C8D#16, 0x1234#16] = .ok (.famd 8#4 ⟨true, 5#3, 0x1234#16⟩, []) ∧
    decodeWords [0x3C9D#16, 0x1234#16] = .ok (.famq 8#4 ⟨true, 5#3, 0x1234#16⟩, []) ∧
    decodeWords [0x31AC#16] = .ok (.fsr 10#4 12#4, []) ∧
    decodeWords [0x358C#16] = .ok (.fsrd 8#4 12#4, []) ∧
    decodeWords [0x359C#16] = .ok (.fsrq 8#4 12#4, []) ∧
    decodeWords [0x39AD#16, 0x1234#16] = .ok (.fsm 10#4 ⟨true, 5#3, 0x1234#16⟩, []) ∧
    decodeWords [0x3D8D#16, 0x1234#16] = .ok (.fsmd 8#4 ⟨true, 5#3, 0x1234#16⟩, []) ∧
    decodeWords [0x3D9D#16, 0x1234#16] = .ok (.fsmq 8#4 ⟨true, 5#3, 0x1234#16⟩, []) ∧
    decodeWords [0x32AC#16] = .ok (.fmr 10#4 12#4, []) ∧
    decodeWords [0x368C#16] = .ok (.fmrd 8#4 12#4, []) ∧
    decodeWords [0x369C#16] = .ok (.fmrq 8#4 12#4, []) ∧
    decodeWords [0x3AAD#16, 0x1234#16] = .ok (.fmm 10#4 ⟨true, 5#3, 0x1234#16⟩, []) := by
  refine ⟨?_, ?_, ?_, ?_, ?_, ?_, ?_, ?_, ?_, ?_, ?_, ?_, ?_, ?_, ?_, ?_⟩ <;> rfl

theorem test_decode_floating_2 :
    decodeWords [0x3E8D#16, 0x1234#16] = .ok (.fmmd 8#4 ⟨true, 5#3, 0x1234#16⟩, []) ∧
    decodeWords [0x3E9D#16, 0x1234#16] = .ok (.fmmq 8#4 ⟨true, 5#3, 0x1234#16⟩, []) ∧
    decodeWords [0x33AC#16] = .ok (.fdr 10#4 12#4, []) ∧
    decodeWords [0x378C#16] = .ok (.fdrd 8#4 12#4, []) ∧
    decodeWords [0x379C#16] = .ok (.fdrq 8#4 12#4, []) ∧
    decodeWords [0x3BAD#16, 0x1234#16] = .ok (.fdm 10#4 ⟨true, 5#3, 0x1234#16⟩, []) ∧
    decodeWords [0x3F8D#16, 0x1234#16] = .ok (.fdmd 8#4 ⟨true, 5#3, 0x1234#16⟩, []) ∧
    decodeWords [0x3F9D#16, 0x1234#16] = .ok (.fdmq 8#4 ⟨true, 5#3, 0x1234#16⟩, []) ∧
    decodeWords [0x30AD#16] = .ok (.cdie 10#4 12#4, []) ∧
    decodeWords [0x34AD#16] = .ok (.cfdi 10#4 12#4, []) ∧
    decodeWords [0x35AD#16] = .ok (.coff 10#4 12#4, []) := by
  refine ⟨?_, ?_, ?_, ?_, ?_, ?_, ?_, ?_, ?_, ?_, ?_⟩ <;> rfl

theorem test_decode_control_1 :
    decodeWords [0x23A7#16] = .ok (.rex 167#8, []) ∧
    decodeWords [0x0100#16] = .ok (.rmi, []) ∧
    decodeWords [0xB396#16] = .ok (.exr 9#4 6#4, []) ∧
    decodeWords [0x0E95#16] = .ok (.lcie 9#4, []) ∧
    decodeWords [0x0E94#16] = .ok (.lcia 9#4, []) ∧
    decodeWords [0x0E96#16] = .ok (.lcip 9#4, []) ∧
    decodeWords [0x0E93#16] = .ok (.lccc 9#4, []) ∧
    decodeWords [0x0E92#16] = .ok (.lcps 9#4, []) ∧
    decodeWords [0x0E91#16] = .ok (.lcpr 9#4, []) ∧
    decodeWords [0x0E00#16] = .ok (.tdr, []) ∧
    decodeWords [0x0000#16] = .ok (.hlt, []) ∧
    decodeWords [0x0110#16] = .ok (.evmo, []) ∧
    decodeWords [0x0795#16] = .ok (.mrrbRm 9#4 5#4, []) ∧
    decodeWords [0x0695#16] = .ok (.mrrbMr 9#4 5#4, []) ∧
    decodeWords [0x0150#16] = .ok (.scrb, []) ∧
    decodeWords [0x0180#16] = .ok (.mabi, []) := by
  refine ⟨?_, ?_, ?_, ?_, ?_, ?_, ?_, ?_, ?_, ?_, ?_, ?_, ?_, ?_, ?_, ?_⟩ <;> rfl

theorem test_decode_control_2 :
    decodeWords [0x01CA#16] = .ok (.amem 10#4, []) ∧
    decodeWords [0x01AA#16] = .ok (.dmeh 10#4, []) ∧
    decodeWords [0x01DA#16] = .ok (.limp 10#4, []) ∧
    decodeWords [0x01EA#16] = .ok (.lomp 10#4, []) ∧
    decodeWords [0x019A#16] = .ok (.zimp 10#4, []) ∧
    decodeWords [0x018A#16] = .ok (.zomp 10#4, []) ∧
    decodeWords [0x0129#16] = .ok (.siom 9#4, []) ∧
    decodeWords [0x0139#16] = .ok (.soom 9#4, []) ∧
    decodeWords [0x0140#16] = .ok (.szom, []) ∧
    decodeWords [0xBE9B#16] = .ok (.ldvm 9#4 10#4, []) ∧
    decodeWords [0xBE9A#16] = .ok (.ldam 9#4 10#4, []) ∧
    decodeWords [0xBF9B#16] = .ok (.stvm 9#4 10#4, []) ∧
    decodeWords [0xBF9A#16] = .ok (.stan 9#4 10#4, []) ∧
    decodeWords [0x0200#16] = .ok (.spr, []) ∧
    decodeWords [0x0289#16] = .ok (.sgp 9#4, []) ∧
    decodeWords [0x0309#16] = .ok (.slp 9#4, []) := by
  refine ⟨?_, ?_, ?_, ?_, ?_, ?_, ?_, ?_, ?_, ?_, ?_, ?_, ?_, ?_, ?_, ?_⟩ <;> rfl

theorem test_decode_control_3 : decodeWords [0x0409#16] = .ok (.sup 9#4, []) := rfl

theorem test_decode_interrupt_io_1 :
    decodeWords [0x2643#16] = .ok (.sie 3#4, []) ∧
    decodeWords [0x2603#16] = .ok (.sia 3#4, []) ∧
    decodeWords [0x2683#16] = .ok (.sir 3#4, []) ∧
    decodeWords [0x2743#16] = .ok (.rie 3#4, []) ∧
    decodeWords [0x2703#16] = .ok (.ria 3#4, []) ∧
    decodeWords [0x2783#16] = .ok (.rir 3#4, []) ∧
    decodeWords [0x240A#16] = .ok (.car 10#4, []) ∧
    decodeWords [0x250A#16] = .ok (.cir 10#4, []) ∧
    decodeWords [0x4A9C#16] = .ok (.isi 2#2 9#4 12#4, []) ∧
    decodeWords [0x4E9C#16] = .ok (.idi 2#2 9#4 12#4, []) ∧
    decodeWords [0x429C#16] = .ok (.oci 2#2 9#4 12#4, []) ∧
    decodeWords [0x469C#16] = .ok (.odi 2#2 9#4 12#4, []) ∧
    decodeWords [0x05A7#16] = .ok (.dmpi 10#4 7#4, []) := by
  refine ⟨?_, ?_, ?_, ?_, ?_, ?_, ?_, ?_, ?_, ?_, ?_, ?_, ?_⟩ <;> rfl

/-- R111, R124: the word of NOP is the hop to the next word. -/
theorem test_decode_nop : decodeWords [0xF701#16] = .ok (.hop 1#7, []) := rfl
theorem test_decode_unassigned : decodeWords [0x1000#16] = .error .unimplemented ∧ decodeWords [0x8F73#16] = .error .unimplemented
    ∧ decodeWords [0x0E07#16] = .error .unimplemented ∧ decodeWords [0x0111#16] = .error .unimplemented := ⟨rfl, rfl, rfl, rfl⟩
theorem test_decode_bytes : decode [0xED#8, 0x50#8, 0x12#8, 0x34#8] = .ok (.ldt 5#4 0x1234#16, []) := rfl
theorem test_decode_truncated : decodeWords [0xED50#16] = .error .truncated := rfl
theorem test_decodeTableWord : decodeTableWord 32 0x1234ED50 = some (.ldt 5#4 0x1234#16) := rfl

/-! ### Single steps -/

/-- A small machine: PS, registers, words of memory; pc at 0100. -/
def small (p : Word) (cells : List (Word × Word)) (g : Regs := Regs.zero) : State :=
  { State.reset with
    pc := 0x100
    psw := Psw.ofWord p
    regs := g
    mem := cells.foldl (fun m c => m.writeWord c.1 c.2) [] }

/-- The step of a state answers a next state with the property. -/
noncomputable def goesTo (s : State) (f : State → Bool) : Bool :=
  match step s with
  | .next t => f t
  | _ => false

/-- The example of R202. -/
theorem test_step_lbx : goesTo (small 0x0 [(0x100, 0xae42), (0x201, 0x4135)] { Regs.zero with r2 := 0x200, r3 := 0x3, r4 := 0xffff })
    (fun t => t.regs.r4 == 0x0035 && t.psw.codesWord == 0b0101 && t.pc == 0x0101) = true := by decide
/-- The example of R204. -/
theorem test_step_ldmd : goesTo (small 0x5 [(0x100, 0xcd50), (0x101, 0x200), (0x200, 0x1234), (0x201, 0xabcd)] { Regs.zero with r4 := 0x0, r5 := 0x0 })
    (fun t => t.regs.r4 == 0x1234 && t.regs.r5 == 0xABCD && t.pc == 0x0102 && t.psw.codesWord == 5) = true := by decide
/-- The example of R209. -/
theorem test_step_lfm : goesTo (small 0x5 [(0x100, 0xa4e0), (0x101, 0x200), (0x200, 0xe), (0x201, 0xf)] { Regs.zero with r14 := 0x0, r15 := 0x0 })
    (fun t => t.regs.r14 == 0x000E && t.regs.r15 == 0x000F && t.pc == 0x0102 && t.psw.codesWord == 5) = true := by decide
/-- The example of R212. -/
theorem test_step_sbx : goesTo (small 0x5 [(0x100, 0xaf42), (0x201, 0x4135)] { Regs.zero with r2 := 0x200, r3 := 0x2, r4 := 0x1239 })
    (fun t => t.mem.readWord 0x0201 == some 0x3935 && t.pc == 0x0101 && t.psw.codesWord == 5) = true := by decide
/-- The example of R214. -/
theorem test_step_stmd : goesTo (small 0x5 [(0x100, 0xce50), (0x101, 0x200), (0x200, 0x0), (0x201, 0x0)] { Regs.zero with r4 := 0x1234, r5 := 0xabcd })
    (fun t => t.mem.readWord 0x0200 == some 0x1234 && t.mem.readWord 0x0201 == some 0xABCD && t.pc == 0x0102 && t.psw.codesWord == 5) = true := by decide
/-- The example of R215. -/
theorem test_step_sti : goesTo (small 0x5 [(0x100, 0xee20), (0x101, 0x0)] { Regs.zero with r2 := 0xbeef })
    (fun t => t.mem.readWord 0x0101 == some 0xBEEF && t.pc == 0x0102 && t.psw.codesWord == 5) = true := by decide
/-- The example of R224. -/
theorem test_step_mlr : goesTo (small 0xf [(0x100, 0xc23)] { Regs.zero with r2 := 0xffff, r3 := 0x4135 })
    (fun t => t.regs.r2 == 0x0035 && t.psw.codesWord == 0b0101 && t.pc == 0x0101) = true := by decide
/-- The example of R227. -/
theorem test_step_mbl : goesTo (small 0xf [(0x100, 0x923)] { Regs.zero with r2 := 0xffff, r3 := 0x4135 })
    (fun t => t.regs.r2 == 0x3500 && t.pc == 0x0101) = true := by decide
/-- The example of R228. -/
theorem test_step_ibr : goesTo (small 0xf [(0x100, 0xa23)] { Regs.zero with r2 := 0xffff, r3 := 0x4135 })
    (fun t => t.regs.r2 == 0x3541 && t.psw.codesWord == 0b0000 && t.pc == 0x0101) = true := by decide
/-- The example of R229. -/
theorem test_step_irm : goesTo (small 0x5 [(0x100, 0xb620), (0x101, 0x200), (0x200, 0x2222)] { Regs.zero with r2 := 0x1111 })
    (fun t => t.regs.r2 == 0x2222 && t.mem.readWord 0x0200 == some 0x1111 && t.pc == 0x0102 && t.psw.codesWord == 5) = true := by decide
/-- The example of R230. -/
theorem test_step_irr : goesTo (small 0x5 [(0x100, 0xb723)] { Regs.zero with r2 := 0x1111, r3 := 0x2222 })
    (fun t => t.regs.r2 == 0x2222 && t.regs.r3 == 0x1111 && t.pc == 0x0101 && t.psw.codesWord == 5) = true := by decide
/-- The example of R234. -/
theorem test_step_trrq : goesTo (small 0x0 [(0x100, 0x8d48)] { Regs.zero with r4 := 0x0, r5 := 0x0, r6 := 0x0, r7 := 0x0, r8 := 0x8000, r9 := 0x0, r10 := 0x0, r11 := 0x1 })
    (fun t => t.regs.r4 == 0x8000 && t.regs.r7 == 0x0001 && t.psw.codesWord == 0b1000 && t.pc == 0x0101) = true := by decide
/-- The example of R236. -/
theorem test_step_rad : goesTo (small 0x0 [(0x100, 0x2a24)] { Regs.zero with r2 := 0x8000, r3 := 0x10 })
    (fun t => t.regs.r2 == 0xF800 && t.regs.r3 == 0x0001 && t.psw.n == true && t.psw.z == false && t.pc == 0x0101) = true := by decide
/-- The example of R238. -/
theorem test_step_las : goesTo (small 0x0 [(0x100, 0x2f24)] { Regs.zero with r2 := 0x123 })
    (fun t => t.regs.r2 == 0x1230 && t.psw.n == false && t.psw.z == false && t.pc == 0x0101) = true := by decide
/-- The example of R246. -/
theorem test_step_llq : goesTo (small 0x0 [(0x100, 0x2c54)] { Regs.zero with r4 := 0x0, r5 := 0x1234, r6 := 0x0, r7 := 0x5678 })
    (fun t => t.regs.r4 == 0x0001 && t.regs.r5 == 0x2340 && t.regs.r6 == 0x0005 && t.regs.r7 == 0x6780 && t.psw.n == false && t.psw.z == false && t.pc == 0x0101) = true := by decide
/-- The example of R248. -/
theorem test_step_gmr : goesTo (small 0x0 [(0x100, 0x6723)] { Regs.zero with r2 := 0x1234 })
    (fun t => t.regs.r2 == 0xF000 && t.psw.codesWord == 0b1000 && t.pc == 0x0101) = true := by decide
/-- The example of R250. -/
theorem test_step_zbr : goesTo (small 0x0 [(0x100, 0x6223)] { Regs.zero with r2 := 0xffff })
    (fun t => t.regs.r2 == 0xEFFF && t.pc == 0x0101 && t.psw.codesWord == 0) = true := by decide
/-- The example of R255. -/
theorem test_step_zbsb : goesTo (small 0x0 [(0x100, 0x9534), (0x101, 0x150), (0x204, 0x1000)] { Regs.zero with r1 := 0x200 })
    (fun t => t.mem.readWord 0x0204 == some 0x0000 && t.pc == 0x0102 && t.psw.codesWord == 0) = true := by decide
/-- The example of R258. -/
theorem test_step_etr : goesTo (small 0x0 [(0x100, 0x6a23)] { Regs.zero with r2 := 0xff0, r3 := 0xff })
    (fun t => t.regs.r2 == 0x00F0 && t.psw.codesWord == 0b0000 && t.pc == 0x0101) = true := by decide
/-- The example of R260. -/
theorem test_step_etmm : goesTo (small 0x0 [(0x100, 0xc120), (0x101, 0x200), (0x200, 0xff0)] { Regs.zero with r2 := 0xff })
    (fun t => t.mem.readWord 0x0200 == some 0x00F0 && t.psw.codesWord == 0b0000 && t.pc == 0x0102) = true := by decide
/-- The example of R274. -/
theorem test_step_obxm : goesTo (small 0x0 [(0x100, 0x9a33), (0x200, 0x0)] { Regs.zero with r3 := 0x200 })
    (fun t => t.mem.readWord 0x0200 == some 0x1000 && t.psw.n == false && t.psw.z == false && t.pc == 0x0101) = true := by decide
/-- The example of R286. -/
theorem test_step_xor : goesTo (small 0x0 [(0x100, 0x6c23)] { Regs.zero with r2 := 0xffff, r3 := 0xf0f })
    (fun t => t.regs.r2 == 0xF0F0 && t.psw.codesWord == 0b1000 && t.pc == 0x0101) = true := by decide
/-- The example of R292. -/
theorem test_step_tor : goesTo (small 0x0 [(0x100, 0xd23)] { Regs.zero with r2 := 0x1111, r3 := 0xff })
    (fun t => t.regs.r2 == 0xFF00 && t.psw.codesWord == 0b1000 && t.pc == 0x0101) = true := by decide
/-- The example of R296. -/
theorem test_step_crr : goesTo (small 0x0 [(0x100, 0x6e23)] { Regs.zero with r2 := 0x5, r3 := 0x7 })
    (fun t => t.psw.codesWord == 0b1000 && t.pc == 0x0101) = true := by decide
/-- The example of R299. -/
theorem test_step_crmb : goesTo (small 0x0 [(0x100, 0xc720), (0x101, 0x200), (0x102, 0x150), (0x103, 0x160), (0x200, 0x7)] { Regs.zero with r2 := 0x5 })
    (fun t => t.psw.codesWord == 0b1000 && t.pc == 0x0150) = true := by decide
/-- The example of R303. -/
theorem test_step_crsb : goesTo (small 0x0 [(0x100, 0xd724), (0x101, 0x150), (0x102, 0x160), (0x204, 0x7)] { Regs.zero with r1 := 0x200, r2 := 0x5 })
    (fun t => t.psw.codesWord == 0b1000 && t.pc == 0x0150) = true := by decide
/-- The example of R306. -/
theorem test_step_tbr : goesTo (small 0x0 [(0x100, 0x6623)] { Regs.zero with r2 := 0x1000 })
    (fun t => t.psw.z == false && t.pc == 0x0101) = true := by decide
/-- The example of R309. -/
theorem test_step_tbmb : goesTo (small 0x0 [(0x100, 0x8630), (0x101, 0x200), (0x102, 0x150), (0x200, 0x1000)])
    (fun t => t.psw.z == false && t.pc == 0x0150) = true := by decide
/-- The example of R314. -/
theorem test_step_tek : goesTo (small 0x0 [(0x100, 0x7e23), (0x101, 0x150)] { Regs.zero with r2 := 0xf0, r3 := 0x810 })
    (fun t => t.psw.codesWord == 0b0000 && t.pc == 0x0150) = true := by decide
/-- The example of R318. -/
theorem test_step_hop : goesTo (small 0x0 [(0x100, 0xf77d)])
    (fun t => t.pc == 0x00FD) = true := by decide
/-- The example of R327. -/
theorem test_step_hls : goesTo (small 0x8 [(0x100, 0xac05)])
    (fun t => t.pc == 0x0105) = true := by decide
/-- The example of R333. -/
theorem test_step_bxr : goesTo (small 0x4 [(0x100, 0x8f93)] { Regs.zero with r3 := 0x200 })
    (fun t => t.pc == 0x0101) = true := by decide
/-- The example of R347. -/
theorem test_step_blm : goesTo (small 0x0 [(0x100, 0xe753), (0x101, 0x200)] { Regs.zero with r3 := 0x10, r5 := 0x0 })
    (fun t => t.regs.r5 == 0x0102 && t.pc == 0x0210) = true := by decide
/-- The example of R349. -/
theorem test_step_blx : goesTo (small 0x0 [(0x100, 0xff53)] { Regs.zero with r3 := 0x200, r5 := 0x0 })
    (fun t => t.regs.r5 == 0x0101 && t.pc == 0x0200) = true := by decide
/-- The example of R355. -/
theorem test_step_blcr : goesTo (small 0x1 [(0x100, 0xa7b5), (0x101, 0x150)] { Regs.zero with r5 := 0x0 })
    (fun t => t.pc == 0x0102) = true := by decide
/-- The example of R365. -/
theorem test_step_abr : goesTo (small 0x0 [(0x100, 0x6023)] { Regs.zero with r2 := 0x7000 })
    (fun t => t.regs.r2 == 0x8000 && t.psw.codesWord == 0b1010 && t.psw.oh == true && t.pc == 0x0101) = true := by decide
/-- The example of R370. -/
theorem test_step_absb : goesTo (small 0x0 [(0x100, 0x9434), (0x101, 0x150), (0x204, 0x7000)] { Regs.zero with r1 := 0x200 })
    (fun t => t.mem.readWord 0x0204 == some 0x8000 && t.psw.codesWord == 0b1010 && t.psw.oh == true && t.pc == 0x0150) = true := by decide
/-- The example of R375. -/
theorem test_step_adrd : goesTo (small 0x0 [(0x100, 0x2224)] { Regs.zero with r2 := 0x0, r3 := 0xffff, r4 := 0x0, r5 := 0x1 })
    (fun t => t.regs.r2 == 0x0001 && t.regs.r3 == 0x0000 && t.psw.codesWord == 0b0000 && t.pc == 0x0101) = true := by decide
/-- The example of R377. -/
theorem test_step_admb : goesTo (small 0x0 [(0x100, 0xc420), (0x101, 0x200), (0x102, 0x150), (0x200, 0x7fff)] { Regs.zero with r2 := 0x1 })
    (fun t => t.mem.readWord 0x0200 == some 0x8000 && t.psw.codesWord == 0b1010 && t.psw.oh == true && t.pc == 0x0150) = true := by decide
/-- The example of R380. -/
theorem test_step_adxm : goesTo (small 0x0 [(0x100, 0xd823), (0x200, 0x7fff)] { Regs.zero with r2 := 0x1, r3 := 0x200 })
    (fun t => t.mem.readWord 0x0200 == some 0x8000 && t.psw.codesWord == 0b1010 && t.psw.oh == true && t.pc == 0x0101) = true := by decide
/-- The example of R389. -/
theorem test_step_sur : goesTo (small 0x0 [(0x100, 0x6923)] { Regs.zero with r2 := 0x5, r3 := 0x7 })
    (fun t => t.regs.r2 == 0xFFFE && t.psw.codesWord == 0b1000 && t.pc == 0x0101) = true := by decide
/-- The example of R393. -/
theorem test_step_sumd : goesTo (small 0x0 [(0x100, 0xc930), (0x101, 0x200), (0x200, 0x0), (0x201, 0x1)] { Regs.zero with r2 := 0x1, r3 := 0x0 })
    (fun t => t.regs.r2 == 0x0000 && t.regs.r3 == 0xFFFF && t.psw.codesWord == 0b0001 && t.pc == 0x0102) = true := by decide
/-- The example of R394. -/
theorem test_step_sui : goesTo (small 0x0 [(0x100, 0xe920), (0x101, 0x7)] { Regs.zero with r2 := 0x5 })
    (fun t => t.regs.r2 == 0xFFFE && t.psw.codesWord == 0b1000 && t.pc == 0x0102) = true := by decide
/-- The example of R397. -/
theorem test_step_mpr : goesTo (small 0x0 [(0x100, 0x2024)] { Regs.zero with r2 := 0x0, r3 := 0xfffd, r4 := 0x7 })
    (fun t => t.regs.r2 == 0xFFFF && t.regs.r3 == 0xFFEB && t.psw.n == true && t.psw.z == false && t.pc == 0x0101) = true := by decide
/-- The example of R403. -/
theorem test_step_dvr : goesTo (small 0x0 [(0x100, 0x2124)] { Regs.zero with r2 := 0x0, r3 := 0x7, r4 := 0xfffe })
    (fun t => t.regs.r2 == 0x0001 && t.regs.r3 == 0xFFFD && t.psw.n == true && t.psw.z == false && t.psw.o == false && t.pc == 0x0101) = true := by decide
/-- The example of R409. -/
theorem test_step_ttr : goesTo (small 0x0 [(0x100, 0x6f23)] { Regs.zero with r2 := 0x1111, r3 := 0x1 })
    (fun t => t.regs.r2 == 0xFFFF && t.psw.codesWord == 0b1000 && t.pc == 0x0101) = true := by decide
/-- The example of R412. -/
theorem test_step_ttrq : goesTo (small 0x0 [(0x100, 0x8b48)] { Regs.zero with r4 := 0x0, r5 := 0x0, r6 := 0x0, r7 := 0x0, r8 := 0x0, r9 := 0x0, r10 := 0x0, r11 := 0x1 })
    (fun t => t.regs.r4 == 0xFFFF && t.regs.r5 == 0xFFFF && t.regs.r6 == 0xFFFF && t.regs.r7 == 0xFFFF && t.psw.codesWord == 0b1000 && t.pc == 0x0101) = true := by decide
/-- The example of R414. -/
theorem test_step_esd : goesTo (small 0x0 [(0x100, 0x8c42)] { Regs.zero with r2 := 0x8000, r3 := 0x1, r4 := 0x0, r5 := 0x0, r6 := 0x0, r7 := 0x0 })
    (fun t => t.regs.r4 == 0xFFFF && t.regs.r5 == 0xFFFF && t.regs.r6 == 0x8000 && t.regs.r7 == 0x0001 && t.psw.n == true && t.psw.z == false && t.pc == 0x0101) = true := by decide
/-- The example of R447. -/
theorem test_step_lcia : goesTo ({ small 0x5 [(0x100, 0xe24)] { Regs.zero with r2 := 0x0 } with ie := 0xc000, ia := 0x4000, ir := 0x2000 })
    (fun t => t.regs.r2 == 0x4000 && t.pc == 0x0101 && t.psw.codesWord == 5) = true := by decide
/-- The example of R449. -/
theorem test_step_lccc : goesTo (small 0x9 [(0x100, 0xe23)] { Regs.zero with r2 := 0xffff })
    (fun t => t.regs.r2 == 0x0009 && t.pc == 0x0101 && t.psw.codesWord == 9) = true := by decide
/-- The example of R451. -/
theorem test_step_lcpr : goesTo (small 0x9 [(0x100, 0xe21)] { Regs.zero with r2 := 0xffff })
    (fun t => t.regs.r2 == 0x0101 && t.pc == 0x0101 && t.psw.codesWord == 9) = true := by decide
/-- The example of R454. -/
theorem test_step_hlt : goesTo (small 0x1000 [(0x100, 0x0)])
    (fun t => t.run == .halted && t.pc == 0x0101) = true := by decide
/-- The example of R470. -/
theorem test_step_ldam : goesTo (small 0x1000 [(0x100, 0xbe62), (0x200, 0x8000)] { Regs.zero with r2 := 0x0, r3 := 0x200, r6 := 0x0 })
    (fun t => t.regs.r6 == 0x8000 && t.psw.codesWord == 0b1000 && t.pc == 0x0101) = true := by decide
/-- The example of R472. -/
theorem test_step_stan : goesTo (small 0x1005 [(0x100, 0xbf62)] { Regs.zero with r2 := 0x0, r3 := 0x200, r6 := 0xbeef })
    (fun t => t.mem.readWord 0x0200 == some 0xBEEF && t.pc == 0x0101 && t.psw.codesWord == 5) = true := by decide

/-! ### Stops -/

/-- R21 (c): register 0 as data refuses. -/
theorem test_register_zero_refuses : step (small 0 [(0x100, 0x6D03)]) = .refused .registerZero := rfl
/-- R22: a pair at 0 refuses as register 0; a quadruple at 2 breaks its constraint. -/
theorem test_quad_constraint_refuses : step (small 0 [(0x100, 0x2A34)]) = .refused .registerMultiple := rfl
/-- R69: X = 8 refuses. -/
theorem test_index_range_refuses : step (small 0 [(0x100, 0xFD28)]) = .refused .indexRegister := rfl
/-- R111: the hop field 40 refuses. -/
theorem test_hop_field_refuses : step (small 0 [(0x100, 0xF740)]) = .refused .hopField := rfl
/-- R89: a first read of an unwritten word refuses. -/
theorem test_unwritten_memory_refuses : step (small 0 [(0x100, 0xFD23)] { Regs.zero with r3 := 0x200 }) = .refused .unwrittenMemory := rfl
/-- R89: an address outside the launch memory is stuck. -/
theorem test_outside_memory_is_stuck :
    step { small 0 [(0x100, 0xFD23)] { Regs.zero with r3 := 0x200 } with launch := [⟨0x100, 0x10⟩] } = .fault .outsideLaunchMemory := rfl
/-- R602: HLT with PV = 0. -/
theorem test_privilege_violation : step (small 0 [(0x100, 0x0000)]) = .fault .privilegeViolation := rfl
/-- R603: the word 1000 is no instruction. -/
theorem test_unimplemented : step (small 0 [(0x100, 0x1000)]) = .fault .unimplementedInstruction := rfl
/-- R655: no step in the halted state. -/
theorem test_halted : step { small 0 [(0x100, 0xF701)] with run := .halted } = .fault .halted := rfl
/-- R655, R7: a privileged class X row refuses in the privileged state. -/
theorem test_class_x_refuses : step (small 0x1000 [(0x100, 0x0110)]) = .refused .virtualMode := rfl
/-- R608, R483: CAR with level 2 active returns with PR from the even and PS from the odd register. -/
theorem test_step_car : goesTo { small 0x1000 [(0x100, 0x2404)] { Regs.zero with r4 := 0x300, r5 := 0x0009 } with ia := 0x2000, ir := 0x2000 }
    (fun t => t.pc == 0x300 && t.psw.toWord == 9 && t.ia == 0 && t.ir == 0x2000) = true := by decide
/-- R606: level 1 is recognised before level 3; the step is its entry. -/
theorem test_recognise_lowest : recognise { small 0 [] with ie := 0x5000, ir := 0x5000 } = some 1#4 := by decide
theorem test_recognise_held_off : recognise { small 0 [] with ie := 0x5000, ir := 0x5000, ia := 0x8000 } = none := by decide
/-- The host's placing: the instruction runs as the first step after reset. -/
theorem test_withFetchWord : goesTo (State.reset.withFetchWord 32 0x1234ED50) (fun t => t.regs.r5 == 0x1234 && t.pc == 2) = true := by decide

/-! ### Laws of the state at reset -/

theorem test_reset_memory_wf : State.reset.mem.wf := ⟨List.Pairwise.nil, fun _ h => by cases h⟩

/-! ### Operands and states that meet the hypotheses of the statements -/

/-- A privileged machine: memory at 0100, 0200 to 0207 and around the end of the address space. -/
def machine : State :=
  small 0x1000
    [(0x100, 0xED50), (0x101, 0x1234), (0x200, 0x0300), (0x201, 0x4135), (0x202, 0x8000), (0x203, 0x0001), (0x204, 0x7FFF),
      (0x205, 0), (0x206, 2), (0x207, 0xFFFF), (0xFFFE, 1), (0xFFFF, 2), (0, 3), (1, 4)]
    ⟨0x200, 0, 3, 0x300, 5, 0, 0x200, 0, 0x201, 0, 0x8000, 0x300, 0xE000, 0x300, 0x0009⟩

/-- The same machine in the unprivileged state, with an overflow recorded. -/
def unprivileged : State := { machine with psw := Psw.ofWord 0x0010 }

theorem witness_EncodedInstructionDecodes : ∃ i : Instr, i.WellFormed = true := ⟨.trr 2#4 3#4, rfl⟩
theorem witness_DecodedInstructionIsWellFormed : ∃ ws i rest, decodeWords ws = .ok (i, rest) := ⟨[0x6D23], _, _, rfl⟩
theorem witness_UnassignedWordIsNoInstruction :
    ((opByte 0x1F00#16).extractLsb' 4 4 = 1#4 ∧ (opByte 0x50FF#16).extractLsb' 4 4 = 5#4 ∧
      opByte 0xCC00#16 ∈ [0x88#8, 0x89#8, 0xB2#8, 0xC8#8, 0xCA#8, 0xCC#8]) ∧
    ∃ s w, (opByte w).extractLsb' 4 4 = 5#4 ∧ s.run = .running ∧ s.pending = none ∧ recognise (takeRequests s) = none ∧
      HoldsWord s s.pc w :=
  ⟨by decide, small 0 [(0x100, 0x5A00)], 0x5A00, by decide, rfl, rfl, rfl, rfl, rfl⟩
theorem witness_StepRunsDecodedInstruction : ∃ (s : State) (w v : Word) (i : Instr), s.run = .running ∧ s.pending = none ∧
    recognise (takeRequests s) = none ∧ HoldsWord s s.pc w ∧ HoldsWord s (s.pc + 1) v ∧ decodeWords [w, v] = .ok (i, []) ∧
    i.WellFormed = true :=
  ⟨machine, 0xED50, 0x1234, .ldt 5#4 0x1234, rfl, rfl, rfl, ⟨rfl, rfl⟩, ⟨rfl, rfl⟩, rfl, rfl⟩
theorem witness_StepKeepsMemoryForm : ∃ s t : State, s.Inv ∧ step s = .next t :=
  ⟨small 0 [(0x100, 0xF701)], _, ⟨by decide, by decide⟩, rfl⟩
theorem witness_MapsAndBlockNeverChange : ∃ s t, reachesIn 1 s t := ⟨small 0 [(0x100, 0xF701)], _, _, rfl, rfl⟩
theorem witness_OnlyReturnsChangePrivilegeOrClearHistory : ∃ (i : Instr) (s t : State), (∀ r, i ≠ .car r) ∧ (∀ r, i ≠ .cir r) ∧
    exec i s = .next t ∧ s.psw.oh = true :=
  ⟨.nop, unprivileged, _, by simp, by simp, rfl, rfl⟩
theorem witness_UnprivilegedProgramsKeepLatches : ∃ (i : Instr) (s t : State), s.psw.pv = false ∧ exec i s = .next t :=
  ⟨.rmi, unprivileged, _, rfl, rfl⟩
theorem witness_PrivilegedRowsFaultUnprivileged : ∃ (i : Instr) (s : State), isPrivileged i = true ∧ s.psw.pv = false :=
  ⟨.evmo, unprivileged, rfl, rfl⟩
theorem witness_UnprivilegedRowsIgnorePrivilege : ∃ i : Instr, isPrivileged i = false ∧ ∀ r, i ≠ .lcps r :=
  ⟨.lccc 2#4, rfl, by simp⟩
theorem witness_InterruptTakesLowestRecognisableLevel_first : ∃ (s : State) (l : BitVec 4), s.run = .running ∧ s.pending = none ∧
    latch (takeRequests s).ir l = true ∧ latch (takeRequests s).ie l = true ∧
    (∀ k, k ≤ l → latch (takeRequests s).ia k = false) ∧
    (∀ k, k < l → latch (takeRequests s).ir k = false ∨ latch (takeRequests s).ie k = false) :=
  ⟨{ machine with ie := 0x0001, envRequests := [0xFFFF] }, 15#4, by decide⟩
theorem witness_InterruptTakesLowestRecognisableLevel_none : ∃ s : State, s.run = .running ∧ s.pending = none ∧
    (takeRequests s).ie &&& (takeRequests s).ir = 0#16 :=
  ⟨{ machine with ie := 0x5555, ir := 0xAAAA }, by decide⟩
theorem witness_InterruptTakesLowestRecognisableLevel_heldOff : ∃ s : State, s.run = .running ∧ s.pending = none ∧
    (takeRequests s).ie &&& (takeRequests s).ir ≠ 0#16 ∧
    ∀ l, latch (takeRequests s).ir l = true → latch (takeRequests s).ie l = true →
      ∃ k, k ≤ l ∧ latch (takeRequests s).ia k = true :=
  ⟨{ machine with ie := 0x8001, ia := 0x8000, ir := 0x8001 }, by decide⟩
theorem witness_ReturnFromInterruptLeavesLevel : ∃ (r r' : Reg) (s : State) (l : BitVec 4), s.psw.pv = true ∧
    Width.admits .double r = true ∧ Width.admits .double r' = true ∧ latch s.ia l = true ∧
    (∀ k, k < l → latch s.ia k = false) ∧ s.regs.get (r + 1) &&& 0xEFE0#16 = s.psw.toWord &&& 0xEFE0#16 ∧
    s.regs.get (r' + 1) &&& 0xEFE0#16 ≠ s.psw.toWord &&& 0xEFE0#16 :=
  ⟨14#4, 12#4, { machine with ia := 0x0003 }, 14#4, by decide⟩
theorem witness_ReturnFromInterruptLeavesLevel_none : ∃ (r : Reg) (s : State), s.psw.pv = true ∧
    Width.admits .double r = true ∧ s.ia = 0#16 := ⟨2#4, machine, by decide⟩
theorem witness_SetAndResetLatches : (∃ s : State, s.psw.pv = false) ∧ ∃ s : State, s.psw.pv = true :=
  ⟨⟨unprivileged, rfl⟩, machine, rfl⟩
theorem witness_ExecutiveRequestThenItsAnswer : ∃ s : State, s.run = .running := ⟨machine, rfl⟩
theorem witness_OperandFormsOfTheCard : (∃ s a p, HoldsWord s a p) ∧ ∃ (s : State) (a v0 v1 v2 v3 : Word),
    HoldsWord s a v0 ∧ HoldsWord s (a + 1) v1 ∧ HoldsWord s (a + 2) v2 ∧ HoldsWord s (a + 3) v3 :=
  ⟨⟨machine, 0x200, _, rfl, rfl⟩, machine, 0xFFFE, _, _, _, _, ⟨rfl, rfl⟩, ⟨rfl, rfl⟩, ⟨rfl, rfl⟩, rfl, rfl⟩
theorem witness_MemoryReadsAsWrittenOrStops : (∃ a v s t, storeWord a v s = .next t ∧ s.Inv) ∧
    (∃ (a : Word) (s : State), s.launched a = false) ∧ ∃ (a : Word) (s : State), s.launched a = true ∧ s.mem.readWord a = none :=
  ⟨⟨0xFFFF, 1, small 0 [(0x100, 0xF701)], _, rfl, by decide, by decide⟩,
    ⟨0x110, { machine with launch := [⟨0x100, 0x10⟩] }, by decide⟩,
    0x10F, { machine with launch := [⟨0x100, 0x10⟩] }, by decide⟩
theorem witness_UnusableOperandsStopTheRow_numbers :
    (∃ i op row, registerRow i = some (op, row) ∧ row.k.admits row.r = false) ∧
    (∃ i row, storeRow i = some row ∧ row.k.admits row.r = false) ∧
    (∃ i row, shiftRow i = some row ∧ row.k.admits row.r = false) ∧
    (∃ i row, floatRow i = some row ∧ row.indirect = false ∧ row.k.admits row.r = false) ∧
    (∃ i row, loadFileRow i = some row ∧ row.r = 0#4) ∧ (∃ i row, storeFileRow i = some row ∧ row.r = 0#4) ∧
    (∃ i row, multiplyRow i = some row ∧ row.r.getLsbD 0 = true) ∧ (∃ i row, divideRow i = some row ∧ row.r = 0#4) ∧
    (∃ i op row r, inspectRow i = some (op, row) ∧ row.first = .reg r ∧ row.k.admits r = false) :=
  ⟨⟨.trr 0#4 3#4, _, _, rfl, rfl⟩, ⟨.stmd 0#4 ⟨false, 0#3, 0x200⟩, _, rfl, rfl⟩, ⟨.raq 2#4 1#4, _, rfl, rfl⟩,
    ⟨.fam 0#4 ⟨false, 0#3, 0x200⟩, _, rfl, rfl, rfl⟩, ⟨.lfs 0#4 1#4, _, rfl, rfl⟩, ⟨.sfs 0#4 1#4, _, rfl, rfl⟩,
    ⟨.mpr 3#4 2#4, _, rfl, rfl⟩, ⟨.dvr 0#4 2#4, _, rfl, rfl⟩, ⟨.crr 0#4 2#4, _, _, _, rfl, rfl, rfl⟩⟩
theorem witness_UnusableOperandsStopTheRow_reads :
    (∃ i op row e, registerRow i = some (op, row) ∧ row.k.admits row.r = true ∧ row.src.read machine = .refused e) ∧
    (∃ i op row b e, memoryRow i = some (op, row) ∧ row.src.read machine = .next b ∧
      effectiveAddress row.o machine = .refused e) ∧
    (∃ i op row e, memoryRow i = some (op, row) ∧ row.src.read machine = .refused e) ∧
    (∃ i op row a e, inspectRow i = some (op, row) ∧ row.first.read machine = .next a ∧ row.second.read machine = .refused e) ∧
    (∃ i row e, floatRow i = some row ∧ row.indirect = false ∧ row.k.admits row.r = true ∧
      row.src.read machine = .refused e) ∧
    ∃ (s : State) (i : Instr) (op : Alu) (row : RegisterRow) (e : Fault), registerRow i = some (op, row) ∧
      row.k.admits row.r = true ∧ row.src.read s = .fault e :=
  ⟨⟨.ldx 2#4 8#4, _, _, _, rfl, rfl, rfl⟩, ⟨.admm 2#4 ⟨true, 0#3, 0x400⟩, _, _, _, _, rfl, rfl, rfl⟩,
    ⟨.admm 0#4 ⟨false, 0#3, 0x200⟩, _, _, _, rfl, rfl⟩, ⟨.crx 2#4 0#4, _, _, _, _, rfl, rfl, rfl⟩,
    ⟨.far 2#4 0#4, _, _, rfl, rfl, rfl, rfl⟩,
    { machine with launch := [⟨0x100, 0x10⟩] }, .ldx 2#4 1#4, _, _, _, rfl, rfl, rfl⟩
theorem witness_UnusableOperandsStopTheRow_named :
    (∃ i k r, forbiddenOperand i = some (k, r) ∧ isPrivileged i = false) ∧
    (∃ i k r, forbiddenOperand i = some (k, r) ∧ isPrivileged i = true ∧ machine.psw.pv = true) ∧
    forbiddenOperand (.coff 2#4 14#4) = some (.quad, 14#4) ∧ forbiddenOperand (.coff 14#4 12#4) = none ∧
    forbiddenOperand (.irr 15#4 0#4) = some (.single, 0#4) :=
  ⟨⟨.esd 4#4 3#4, .double, 3#4, rfl, rfl⟩, ⟨.car 15#4, .double, 15#4, rfl, rfl, rfl⟩, rfl, rfl, rfl⟩
/-- Sixteen words from 0x100 on, and pc at the last. -/
def cramped : State := { machine with launch := [⟨0x100, 0x10⟩], pc := 0x10F }
theorem witness_UnusableOperandsStopTheRow_access :
    (∃ i op row b ea e, memoryRow i = some (op, row) ∧ row.src.read machine = .next b ∧
      effectiveAddress row.o machine = .next ea ∧ loadWord ea machine = .refused e) ∧
    (∃ i op row e, inspectRow i = some (op, row) ∧ row.first.read machine = .refused e) ∧
    (∃ i row e, multiplyRow i = some row ∧ Width.admits .double row.r = true ∧ row.src.read machine = .refused e) ∧
    (∃ i row e, divideRow i = some row ∧ Width.admits .double row.r = true ∧ row.src.read machine = .refused e) ∧
    (∃ i row e, storeRow i = some row ∧ row.k.admits row.r = true ∧ effectiveAddress row.o machine = .refused e) ∧
    (∃ i row ea, storeRow i = some row ∧ row.k.admits row.r = true ∧ effectiveAddress row.o cramped = .next ea ∧
      cramped.launched ea = true ∧ ∃ k < row.k.words, cramped.launched (ea + BitVec.ofNat 16 k) = false) ∧
    (∃ i row e, loadFileRow i = some row ∧ row.r ≠ 0#4 ∧ effectiveAddress row.o machine = .refused e) ∧
    (∃ i row ea e, loadFileRow i = some row ∧ row.r ≠ 0#4 ∧ effectiveAddress row.o machine = .next ea ∧
      loadWords ea (16 - row.r.toNat) machine = .refused e) ∧
    (∃ i row e, storeFileRow i = some row ∧ row.r ≠ 0#4 ∧ effectiveAddress row.o machine = .refused e) ∧
    ∃ i row ea, storeFileRow i = some row ∧ row.r ≠ 0#4 ∧ effectiveAddress row.o cramped = .next ea ∧
      ∃ k < 16 - row.r.toNat, cramped.launched (ea + BitVec.ofNat 16 k) = false :=
  ⟨⟨.admm 2#4 ⟨false, 0#3, 0x400⟩, _, _, _, _, _, rfl, rfl, rfl, rfl⟩, ⟨.tbmb 3#4 ⟨false, 0#3, 0x400⟩ 0x150, _, _, _, rfl, rfl⟩,
    ⟨.mpr 14#4 0#4, _, _, rfl, rfl, rfl⟩, ⟨.dvm 2#4 ⟨false, 0#3, 0x400⟩, _, _, rfl, rfl, rfl⟩, ⟨.stx 2#4 8#4, _, _, rfl, rfl, rfl⟩,
    ⟨.stmd 2#4 ⟨false, 0#3, 0x10F⟩, _, _, rfl, rfl, rfl, rfl, 1, by decide, rfl⟩, ⟨.lfx 2#4 8#4, _, _, rfl, by decide, rfl⟩,
    ⟨.lfm 15#4 ⟨false, 0#3, 0x400⟩, _, _, _, rfl, by decide, rfl, rfl⟩, ⟨.sfx 2#4 0#4, _, _, rfl, by decide, rfl⟩,
    .sfm 15#4 ⟨false, 0#3, 0x110⟩, _, _, rfl, by decide, rfl, 0, by decide, rfl⟩
theorem witness_UnusableOperandsStopTheRow_single :
    cramped.launched (cramped.pc + 1) = false ∧ (∃ m e, longAddress m machine = .refused e) ∧
    (∃ m ea e, longAddress m machine = .next ea ∧ loadWord ea machine = .refused e) ∧
    (∃ x e, byteAddress x machine = .refused e) ∧
    (∃ x a left e, byteAddress x machine = .next (a, left) ∧ loadWord a machine = .refused e) ∧
    ∃ p q e f, Width.admits .double p = true ∧ Width.admits .double q = true ∧ machine.psw.pv = true ∧
      physRead (machine.regs.getMulti .double p) machine = .refused e ∧
      physWrite (machine.regs.getMulti .double q) 1 machine = .fault f :=
  ⟨rfl, ⟨⟨true, 0#3, 0x400⟩, _, rfl⟩, ⟨⟨false, 0#3, 0x400⟩, _, _, rfl, rfl⟩, ⟨8#4, _, rfl⟩, ⟨4#4, _, _, _, rfl, rfl⟩,
    2#4, 4#4, _, _, rfl, rfl, rfl, rfl, rfl⟩
theorem witness_CharactersAreClassified : ((0x28 ≤ (0x2F#8).toNat ∧ (0x2F#8).toNat ≤ 0x2F) ∧ (0x20#8).toNat = 0x20 ∧
    (0x30 ≤ (0x39#8).toNat ∧ (0x39#8).toNat ≤ 0x39) ∧ (0x41 ≤ (0x5A#8).toNat ∧ (0x5A#8).toNat ≤ 0x5A) ∧
    (0x61 ≤ (0x7A#8).toNat ∧ (0x7A#8).toNat ≤ 0x7A) ∧ 0x80 ≤ (0x80#8).toNat) ∧
    [0x00#8, 0x1F#8, 0x21#8, 0x27#8, 0x3A#8, 0x40#8, 0x5B#8, 0x60#8, 0x7B#8, 0x7F#8].all
      (fun c => classify c == ⟨false, false, false, true⟩) = true ∧
    classify 0x28#8 = ⟨true, false, false, false⟩ ∧ classify 0x2F#8 = ⟨true, true, true, true⟩ := by decide
theorem witness_LoadAndTransferRowsCopy : (∃ i row b, registerRow i = some (.copy, row) ∧ row.k.admits row.r = true ∧
    row.src.read machine = .next b) ∧ ∃ i row b, registerRow i = some (.transfer, row) ∧ row.k.admits row.r = true ∧
    row.src.read machine = .next b :=
  ⟨⟨.ldmd 14#4 ⟨true, 1#3, 0x206⟩, _, _, rfl, rfl, rfl⟩, .trrq 4#4 12#4, _, _, rfl, rfl, rfl⟩
theorem witness_RegisterAddsAreExact : ∃ i row b, registerRow i = some (.add, row) ∧ row.k.admits row.r = true ∧
    row.src.read machine = .next b := ⟨.ads 11#4 2#4, _, _, rfl, rfl, rfl⟩
theorem witness_RegisterSubtractsAreExact : ∃ i row b, registerRow i = some (.subtract, row) ∧ row.k.admits row.r = true ∧
    row.src.read machine = .next b := ⟨.sumd 2#4 ⟨false, 0#3, 0x201⟩, _, _, rfl, rfl, rfl⟩
theorem witness_TwosComplementRowsNegate : ∃ i row b, registerRow i = some (.negate, row) ∧ row.k.admits row.r = true ∧
    row.src.read machine = .next b := ⟨.ttrb 11#4 11#4 0x150, _, _, rfl, rfl, rfl⟩
theorem witness_LogicalRegisterRows : [Instr.etr 2#4 3#4, .ori 2#4 5, .xox 2#4 1#4, .tor 2#4 3#4].all (fun i =>
    match registerRow i with
    | some (op, row) => decide (op ∈ [Alu.extract, .inclusiveOr, .exclusiveOr, .complement]) && row.k.admits row.r &&
        (match row.src.read machine with | .next _ => true | _ => false)
    | none => false) = true := by decide
theorem witness_ZeroBitInRegister : ∃ r : Reg, r ≠ 0#4 := ⟨15#4, by decide⟩
theorem witness_SetAndFlipBitInRegister : ∃ r : Reg, r ≠ 0#4 := ⟨1#4, by decide⟩
theorem witness_GenerateMaskFillsFromTheLeft : ∃ r : Reg, r ≠ 0#4 := ⟨8#4, by decide⟩
theorem witness_MemoryAddsAreExact : ∃ i row b ea a, memoryRow i = some (.add, row) ∧ row.src.read machine = .next b ∧
    effectiveAddress row.o machine = .next ea ∧ HoldsWord machine ea a :=
  ⟨.admb 5#4 ⟨false, 1#3, 2⟩ 0x150, _, _, _, _, rfl, rfl, rfl, rfl, rfl⟩
theorem witness_LogicalMemoryRows : [Instr.zbsb 0#4 2#4 0x150, .etxm 5#4 1#4, .ormm 5#4 ⟨true, 1#3, 0x206⟩].all (fun i =>
    match memoryRow i with
    | some (op, row) => decide (op ∈ [Alu.zeroBit, .extract, .inclusiveOr]) &&
        (match row.src.read machine with | .next _ => true | _ => false) &&
        (match effectiveAddress row.o machine with
          | .next ea => machine.launched ea && (machine.mem.readWord ea).isSome
          | _ => false)
    | none => false) = true := by decide
theorem witness_SetBitInMemory : ∃ i row b ea a, memoryRow i = some (.setBit, row) ∧ row.src.read machine = .next b ∧
    effectiveAddress row.o machine = .next ea ∧ HoldsWord machine ea a :=
  ⟨.obsm 15#4 7#4, _, _, _, _, rfl, rfl, rfl, rfl, rfl⟩
theorem witness_ComparesOrderTheirOperands : ∃ i row a b, inspectRow i = some (.subtract, row) ∧
    row.first.read machine = .next a ∧ row.second.read machine = .next b :=
  ⟨.crsb 11#4 4#4 0x150 0x160, _, _, _, rfl, rfl, rfl⟩
theorem witness_TestBitTellsTheBit : ∃ i row a b, inspectRow i = some (.testBit, row) ∧
    row.first.read machine = .next a ∧ row.second.read machine = .next b :=
  ⟨.tbmb 0#4 ⟨false, 0#3, 0x202⟩ 0x150, _, _, _, rfl, rfl, rfl⟩
theorem witness_TestRegisterBranchesOnCommonOnes : ∃ i row a b, inspectRow i = some (.testOnes, row) ∧
    row.first.read machine = .next a ∧ row.second.read machine = .next b := ⟨.tek 3#4 5#4 0x150, _, _, _, rfl, rfl, rfl⟩
theorem witness_StoresWriteRegisterWords : (∃ i row ea, storeRow i = some row ∧ row.k.admits row.r = true ∧
    effectiveAddress row.o machine = .next ea ∧ ∀ k < row.k.words, machine.launched (ea + BitVec.ofNat 16 k) = true) ∧
    ∃ r : Reg, r ≠ 0#4 ∧ machine.launched (machine.pc + 1) = true :=
  ⟨⟨.stmd 4#4 ⟨false, 0#3, 0xFFFF⟩, _, _, rfl, rfl, rfl, by decide⟩, 2#4, by decide, by decide⟩
theorem witness_FileRowsMoveAllRegistersUp : (∃ (i : Instr) (row : FileRow) (ea v0 v1 : Word), loadFileRow i = some row ∧
    row.r ≠ 0#4 ∧ effectiveAddress row.o machine = .next ea ∧ [v0, v1].length = 16 - row.r.toNat ∧
    HoldsWord machine (ea + BitVec.ofNat 16 0) v0 ∧ HoldsWord machine (ea + BitVec.ofNat 16 1) v1) ∧
    ∃ i row ea, storeFileRow i = some row ∧ row.r ≠ 0#4 ∧ effectiveAddress row.o machine = .next ea ∧
      ∀ k < 16 - row.r.toNat, machine.launched (ea + BitVec.ofNat 16 k) = true :=
  ⟨⟨.lfm 14#4 ⟨false, 0#3, 0xFFFF⟩, _, _, _, _, rfl, by decide, rfl, rfl, ⟨rfl, rfl⟩, rfl, rfl⟩,
    .sfx 1#4 1#4, _, _, rfl, by decide, rfl, by decide⟩
theorem witness_ByteLoadsAndStoresSelectOneByte : (∃ (r x x' : Reg) (a a' v v' : Word), r ≠ 0#4 ∧
    1 ≤ x.toNat ∧ x.toNat ≤ 7 ∧ a = machine.regs.get x + BitVec.ofNat 16 ((machine.regs.get (x ||| 1#4)).toNat / 2) ∧
    HoldsWord machine a v ∧ x'.toNat = 7 ∧
    a' = machine.regs.get x' + BitVec.ofNat 16 ((machine.regs.get (x' ||| 1#4)).toNat / 2) ∧
    HoldsWord { machine with mem := machine.mem.writeWord a' v' } a' v') ∧
    (0#4).toNat = 0 ∧ 8 ≤ (8#4).toNat :=
  ⟨⟨15#4, 2#4, 7#4, _, _, _, 5, by decide, by decide, by decide, rfl, ⟨rfl, rfl⟩, by decide, rfl, rfl, rfl⟩, by decide, by decide⟩
theorem witness_ByteMovesBetweenRegisters : ∃ r q : Reg, r ≠ 0#4 ∧ q ≠ 0#4 := ⟨1#4, 15#4, by decide⟩
theorem witness_InterchangesSwap : (∃ (r : Reg) (m : LongAddress) (ea v : Word), r ≠ 0#4 ∧ longAddress m machine = .next ea ∧
    HoldsWord machine ea v) ∧ ∃ r q : Reg, r ≠ 0#4 ∧ q ≠ 0#4 :=
  ⟨⟨1#4, ⟨false, 1#3, 2⟩, _, _, by decide, rfl, rfl, rfl⟩, 3#4, 3#4, by decide⟩
theorem witness_ShiftsScaleByPowersOfTwo : (∃ i row, shiftRow i = some row ∧ row.k.admits row.r = true) ∧
    ∃ i row, shiftRow i = some row ∧ row.k.admits row.r = true ∧
      fitsSigned row.k.bits ((machine.regs.getMulti row.k row.r).toInt * 2 ^ row.c.toNat) = true :=
  ⟨⟨.raq 12#4 15#4, _, rfl, rfl⟩, .las 3#4 13#4, _, rfl, rfl, by decide⟩
theorem witness_ConditionalHops : (∃ i row, hopRow i = some row ∧ row.n = 0x3F#7 ∧ row.n ≠ 0x40#7 ∧
      Branches unprivileged.psw row.cond row.inverted) ∧
    (∃ i row, hopRow i = some row ∧ row.n = 0x41#7 ∧ row.n ≠ 0x40#7 ∧ ¬ Branches unprivileged.psw row.cond row.inverted) ∧
    ∃ i row, hopRow i = some row ∧ row.n = 0x40#7 :=
  ⟨⟨.hgt 0x3F#7, _, rfl, rfl, by decide, by simp [Branches, holdsCondition, unprivileged, Psw.ofWord]⟩,
    ⟨.hls 0x41#7, _, rfl, rfl, by decide, by simp [Branches, holdsCondition, unprivileged, Psw.ofWord]⟩, .hzs 0x40#7, _, rfl, rfl⟩
theorem witness_UnconditionalHopAndNullOperation : (0x3F#7 ≠ 0x40#7) ∧ 0x41#7 ≠ 0x40#7 := by decide
theorem witness_ShortIndexedBranches : (∃ i row, indexedBranchRow i = some row ∧ row.x.toNat = 1 ∧
      (1 ≤ row.x.toNat ∧ row.x.toNat ≤ 7) ∧ Branches unprivileged.psw row.cond row.inverted) ∧
    (∃ i row, indexedBranchRow i = some row ∧ row.x.toNat = 7 ∧ (1 ≤ row.x.toNat ∧ row.x.toNat ≤ 7) ∧
      ¬ Branches unprivileged.psw row.cond row.inverted) ∧
    (∃ i row, indexedBranchRow i = some row ∧ row.x.toNat = 0) ∧ ∃ i row, indexedBranchRow i = some row ∧ 8 ≤ row.x.toNat :=
  ⟨⟨.bxr 1#4, _, rfl, rfl, by decide, by simp [Branches, holdsCondition, unprivileged, Psw.ofWord]⟩,
    ⟨.bxhi 7#4, _, rfl, rfl, by decide, by simp [Branches, holdsCondition, unprivileged, Psw.ofWord]⟩,
    ⟨.bxs 0#4, _, rfl, rfl⟩, .bxs 8#4, _, rfl, by decide⟩
theorem witness_ConditionalBranchAndLink : (∃ i row, linkBranchRow i = some row ∧ row.r = 0#4 ∧
      Branches unprivileged.psw row.cond row.inverted) ∧
    (∃ i row, linkBranchRow i = some row ∧ row.r ≠ 0#4 ∧ Branches unprivileged.psw row.cond row.inverted) ∧
    ∃ i row, linkBranchRow i = some row ∧ ¬ Branches unprivileged.psw row.cond row.inverted :=
  ⟨⟨.blcr 0#4 0x150, _, rfl, rfl, by simp [Branches, holdsCondition, unprivileged, Psw.ofWord]⟩,
    ⟨.blge 15#4 0x150, _, rfl, by decide, by simp [Branches, holdsCondition, unprivileged, Psw.ofWord]⟩,
    .blls 2#4 0x150, _, rfl, by simp [Branches, holdsCondition, unprivileged, Psw.ofWord]⟩
theorem witness_UnconditionalBranchAndLink : (∃ (r : Reg) (m : LongAddress) (ea : Word), r ≠ 0#4 ∧
    longAddress m machine = .next ea) ∧ (1 ≤ (1#4).toNat ∧ (7#4).toNat ≤ 7) ∧ (0#4).toNat = 0 ∧ 8 ≤ (8#4).toNat :=
  ⟨⟨2#4, ⟨true, 1#3, 0x206⟩, _, by decide, rfl⟩, by decide⟩
theorem witness_MultiplyIsExact : ∃ i row b, multiplyRow i = some row ∧ Width.admits .double row.r = true ∧
    row.src.read machine = .next b := ⟨.mpm 10#4 ⟨false, 0#3, 0x202⟩, _, _, rfl, rfl, rfl⟩
theorem witness_DivideTruncatesOrOverflows_quotient : ∃ i row s b q, divideRow i = some row ∧
    Width.admits .double row.r = true ∧ row.src.read s = .next b ∧ q = (s.regs.getMulti .double row.r).toInt.tdiv b.toInt ∧
    b ≠ 0#16 ∧ q = 32767 ∧ -32768 ≤ q ∧ q ≤ 32767 :=
  ⟨.dvm 2#4 ⟨false, 0#3, 0x203⟩, ⟨2#4, .mem (.long ⟨false, 0#3, 0x203⟩), 2⟩,
    { machine with regs := { machine.regs with r3 := 0x7FFF } }, 1, 32767, rfl, rfl, rfl, rfl, by decide⟩
theorem witness_DivideTruncatesOrOverflows_overflow : (∃ i row b q, divideRow i = some row ∧
      Width.admits .double row.r = true ∧ row.src.read machine = .next b ∧
      q = (machine.regs.getMulti .double row.r).toInt.tdiv b.toInt ∧ ¬(b ≠ 0#16 ∧ -32768 ≤ q ∧ q ≤ 32767) ∧ q = 32768) ∧
    ∃ i row b q, divideRow i = some row ∧ Width.admits .double row.r = true ∧ row.src.read machine = .next b ∧
      q = (machine.regs.getMulti .double row.r).toInt.tdiv b.toInt ∧ ¬(b ≠ 0#16 ∧ -32768 ≤ q ∧ q ≤ 32767) ∧ b = 0#16 :=
  ⟨⟨.dvm 10#4 ⟨false, 0#3, 0x203⟩, ⟨10#4, .mem (.long ⟨false, 0#3, 0x203⟩), 2⟩, 1, 32768, rfl, rfl, rfl, rfl, by decide, rfl⟩,
    .dvr 2#4 6#4, ⟨2#4, .reg 6#4, 1⟩, 0, 0, rfl, rfl, rfl, rfl, by decide, rfl⟩
theorem witness_ExtendSignKeepsTheNumber : (∃ r q : Reg, Width.admits .double r = true ∧ q ≠ 0#4) ∧
    ∃ r q : Reg, Width.admits .quad r = true ∧ Width.admits .double q = true := ⟨⟨14#4, 11#4, by decide⟩, 12#4, 14#4, by decide⟩
theorem witness_FloatingRowsApplyTheParameter : (∃ i row, floatRow i = some row ∧ row.indirect = true) ∧
    (∃ i row b, floatRow i = some row ∧ row.indirect = false ∧ row.k.admits row.r = true ∧ row.src.read machine = .next b) ∧
    ∃ r q q' : Reg, Width.admits .double r = true ∧ Width.admits .double q = true ∧ Width.admits .quad q' = true :=
  ⟨⟨.fam 2#4 ⟨true, 0#3, 0x200⟩, _, rfl, rfl⟩, ⟨.fdmd 12#4 ⟨false, 1#3, 1⟩, _, _, rfl, rfl, rfl, rfl⟩, 2#4, 14#4, 4#4, by decide⟩
theorem witness_ControlWordsAreReadIntoR : (∃ r : Reg, r = 0#4) ∧ ∃ r : Reg, r ≠ 0#4 := ⟨⟨0#4, rfl⟩, 15#4, by decide⟩
theorem witness_ProgramRegisterAndCodesMove : (∃ r : Reg, r = 0#4) ∧ ∃ r : Reg, r ≠ 0#4 := ⟨⟨0#4, rfl⟩, 1#4, by decide⟩
theorem witness_HaltStopsTheMachine : (∃ s : State, s.psw.pv = false) ∧ (∃ s : State, s.psw.pv = true) ∧
    ∃ s : State, s.run = .halted := ⟨⟨unprivileged, rfl⟩, ⟨machine, rfl⟩, { machine with run := .halted }, rfl⟩
theorem witness_ActualMemoryRows : (∃ (r p : Reg) (a v : Word), machine.psw.pv = true ∧ r ≠ 0#4 ∧
      Width.admits .double p = true ∧ (machine.regs.getMulti .double p).toNat = a.toNat ∧ machine.launched a = true ∧
      machine.mem.readWord a = some v) ∧
    ∃ p : Reg, Width.admits .double p = true ∧ 65536 ≤ (machine.regs.getMulti .double p).toNat :=
  ⟨⟨2#4, 8#4, 0x201, 0x4135, by decide⟩, 4#4, by decide⟩
theorem witness_RegisterInputAndOutput : machine.psw.pv = true ∧ (∃ r : Reg, r = 0#4) ∧ ∃ r : Reg, r ≠ 0#4 :=
  ⟨rfl, ⟨0#4, rfl⟩, 3#4, by decide⟩
theorem witness_RefusedRowsRefuse : (∃ i r, refusedRow i = some r ∧ isPrivileged i = false) ∧
    ∃ i r, refusedRow i = some r ∧ isPrivileged i = true ∧ machine.psw.pv = true :=
  ⟨⟨.tdr, _, rfl, rfl⟩, .dmpi 2#4 0#4, _, rfl, rfl, rfl⟩

end Sys2Proof.Tests
end

section
/-! PROOFS. What every step and every row keeps: the maps, the register block and the launch addresses, the privilege and the
overflow history, and, with PV = 0, the latches (spec/10_state.md R31-R35). -/

namespace Sys2Proof.Machine

/-! ### Rows behind the privilege check -/

/-- A privileged row is a body behind the privilege check (R602). -/
theorem exec_eq_privileged {i : Instr} (hi : isPrivileged i = true) (s : State) : ∃ x, exec i s = privileged s x := by
  cases i <;> first | contradiction | exact ⟨_, rfl⟩

/-- A privileged row goes on only in the privileged state (R602). -/
theorem pv_of_exec_privileged {i : Instr} {s t : State} (hi : isPrivileged i = true) (h : exec i s = .next t) :
    s.psw.pv = true := by
  obtain ⟨x, e⟩ := exec_eq_privileged hi s
  exact (privileged_eq_next.mp (e ▸ h)).1

/-- A privileged body that is a next state in any case: the row goes on to that state. -/
theorem eq_of_privileged_next {s t u : State} (h : privileged s (.next u) = .next t) : t = u := by
  obtain ⟨-, e⟩ := privileged_eq_next.mp h
  cases e
  rfl

/-! ### Rows that reach latches, run state or environment -/

/-- Of the rows that reach control, only REX and RMI are unprivileged (R442, R443, R602). -/
theorem eq_rex_or_rmi_of_unprivileged {i : Instr} (hc : reachesControl i = true) (hp : isPrivileged i = false) :
    (∃ sn, i = .rex sn) ∨ i = .rmi := by
  cases i <;> first | contradiction | exact .inl ⟨_, rfl⟩ | exact .inr rfl

/-- A row that reaches control leaves PS and the launch addresses alone, but for the two returns from interrupt. -/
theorem control_keeps_status {i : Instr} {s t : State} (hc : reachesControl i = true) (hcar : ∀ r, i ≠ .car r)
    (hcir : ∀ r, i ≠ .cir r) (h : exec i s = .next t) : t.psw = s.psw ∧ t.launch = s.launch := by
  have output : ∀ {e r}, privileged s (outputWord e r s) = .next t → t.psw = s.psw ∧ t.launch = s.launch := fun h => by
    obtain ⟨-, h⟩ := privileged_eq_next.mp h
    obtain ⟨-, rfl⟩ := outputWord_eq_next.mp h
    exact ⟨rfl, rfl⟩
  cases i <;> first | contradiction | skip
  case rex sn => cases h; exact ⟨rfl, rfl⟩
  case rmi => cases h; exact ⟨rfl, rfl⟩
  case hlt => rw [eq_of_privileged_next h]; exact ⟨rfl, rfl⟩
  case sie l | sia l | sir l | rie l | ria l | rir l => rw [eq_of_privileged_next h]; exact ⟨rfl, rfl⟩
  case car r => exact absurd rfl (hcar r)
  case cir r => exact absurd rfl (hcir r)
  case oci j r u => exact output h
  case odi j r u => exact output h

/-- Settles O9. The frame lemma `exec_tame` covers every row that does not reach control, `control_keeps_status` the others. -/
theorem onlyReturnsChangePrivilegeOrClearHistory : Obligations.OnlyReturnsChangePrivilegeOrClearHistory := by
  intro i s t hcar hcir h
  cases hc : reachesControl i with
  | false =>
    obtain ⟨-, -, ⟨-, hpv, -, -⟩, history⟩ := exec_tame hc h
    exact ⟨hpv, history⟩
  | true =>
    obtain ⟨hpsw, -⟩ := control_keeps_status hc hcar hcir h
    rw [hpsw]
    exact ⟨rfl, id⟩

/-- Settles O10. A privileged row does not go on with PV = 0, so that of the rows reaching control REX and RMI are left. -/
theorem unprivilegedProgramsKeepLatches : Obligations.UnprivilegedProgramsKeepLatches := by
  intro i s t hpv h
  have hp : isPrivileged i = false := by
    by_contra hne
    have := pv_of_exec_privileged (by simpa using hne) h
    simp [hpv] at this
  cases hc : reachesControl i with
  | false =>
    obtain ⟨-, ⟨hie, hia, hir, hrun, -, -, -, houtputs⟩, ⟨-, hmode, -, -⟩, -⟩ := exec_tame hc h
    exact ⟨hmode.trans hpv, hie, hia, hir, hrun, .inl houtputs⟩
  | true =>
    obtain ⟨sn, rfl⟩ | rfl := eq_rex_or_rmi_of_unprivileged hc hp
    · cases h
      exact ⟨hpv, rfl, rfl, rfl, rfl, .inl rfl⟩
    · cases h
      exact ⟨hpv, rfl, rfl, rfl, rfl, .inr rfl⟩

/-! ### What one step can do -/

/-- A fetch that goes on has executed an instruction. -/
theorem fetchAndRun_eq_next {run : Instr → State → Res State} {s t : State} (h : fetchAndRun run s = .next t) :
    ∃ i, run i s = .next t := by
  obtain ⟨w, -, h⟩ := Res.bind_eq_next.mp h
  split at h
  · cases h
  · obtain ⟨ws, -, h⟩ := Res.bind_eq_next.mp h
    split at h
    · exact ⟨_, h⟩
    · cases h

/-- A step that goes on is an answer of the executive, the entry of an interrupt, or an instruction, the last two after the
environment's turn (R604-R607). -/
theorem step_eq_next {s t : State} (h : step s = .next t) :
    (∃ sn, s.pending = some sn ∧ executiveTurn sn s = .next t) ∨
    (∃ level, recognise (takeRequests s) = some level ∧ enterInterrupt level (takeRequests s) = .next t) ∨
    ∃ i, exec i (takeRequests s) = .next t := by
  unfold step at h
  split at h
  · cases h
  · rename_i sn _ hsn
    exact .inl ⟨sn, hsn, h⟩
  · split at h
    · rename_i level hl
      exact .inr (.inl ⟨level, hl, h⟩)
    · exact .inr (.inr (fetchAndRun_eq_next h))

/-- A reflexive and transitive relation that every step keeps holds from the beginning of every run to its end. -/
theorem reachesIn_keeps {R : State → State → Prop} (refl : ∀ s, R s s) (trans : ∀ {s u t}, R s u → R u t → R s t)
    (keep : ∀ {s u}, step s = .next u → R s u) (n : Nat) (s t : State) (h : reachesIn n s t) : R s t := by
  induction n generalizing s with
  | zero => exact h ▸ refl s
  | succ n ih =>
    obtain ⟨u, hstep, hrest⟩ := h
    exact trans (keep hstep) (ih u hrest)

/-! ### The maps, the register block and the launch addresses -/

/-- The map numbers, the register block and the launch addresses of `t` are those of `s` (R33, R34, R89). -/
def KeepsSpace (s t : State) : Prop :=
  t.psw.im = s.psw.im ∧ t.psw.om = s.psw.om ∧ t.psw.grb = s.psw.grb ∧ t.launch = s.launch

theorem KeepsSpace.refl (s : State) : KeepsSpace s s := ⟨rfl, rfl, rfl, rfl⟩

theorem KeepsSpace.trans {s u t : State} (h : KeepsSpace s u) (h' : KeepsSpace u t) : KeepsSpace s t := by
  obtain ⟨him, hom, hgrb, hlaunch⟩ := h
  obtain ⟨him', hom', hgrb', hlaunch'⟩ := h'
  exact ⟨him'.trans him, hom'.trans hom, hgrb'.trans hgrb, hlaunch'.trans hlaunch⟩

theorem Tame.keepsSpace {s t : State} (h : Tame s t) : KeepsSpace s t := by
  obtain ⟨him, -, hgrb, hom⟩ := h.mode
  obtain ⟨-, -, -, -, hlaunch, -, -, -⟩ := h.control
  exact ⟨him, hom, hgrb, hlaunch⟩

/-- A status word admitted by `sameSpace` names the same maps and block (R33, D58). -/
theorem keepsSpace_of_sameSpace {s t : State} (h : s.psw.sameSpace t.psw = true) (hlaunch : t.launch = s.launch) :
    KeepsSpace s t := by
  simp only [Psw.sameSpace, Bool.and_eq_true, beq_iff_eq] at h
  obtain ⟨⟨him, hgrb⟩, hom⟩ := h
  exact ⟨him.symm, hom.symm, hgrb.symm, hlaunch⟩

theorem takeRequests_keepsSpace (s : State) : KeepsSpace s (takeRequests s) := by simp [KeepsSpace]

theorem executiveTurn_keepsSpace {sn : BitVec 8} {s t : State} (h : executiveTurn sn s = .next t) : KeepsSpace s t := by
  obtain ⟨a, -, -, hspace, rfl⟩ := executiveTurn_eq_next.mp h
  exact keepsSpace_of_sameSpace hspace rfl

theorem enterInterrupt_keepsSpace {l : BitVec 4} {s t : State} (h : enterInterrupt l s = .next t) : KeepsSpace s t := by
  obtain ⟨a, -, -, hspace, rfl, -⟩ := enterInterrupt_eq_next.mp h
  exact keepsSpace_of_sameSpace hspace rfl

theorem returnFromInterrupt_keepsSpace {b : Bool} {r : Reg} {s t : State} (h : returnFromInterrupt b r s = .next t) :
    KeepsSpace s t := by
  obtain ⟨-, -, l, -, hspace, rfl⟩ := returnFromInterrupt_eq_next.mp h
  exact keepsSpace_of_sameSpace hspace rfl

/-- No instruction changes a map number, the register block or the launch addresses. -/
theorem exec_keepsSpace {i : Instr} {s t : State} (h : exec i s = .next t) : KeepsSpace s t := by
  cases hc : reachesControl i with
  | false => exact (exec_tame hc h).keepsSpace
  | true =>
    by_cases hcar : ∃ r, i = .car r
    · obtain ⟨r, rfl⟩ := hcar
      exact returnFromInterrupt_keepsSpace h
    by_cases hcir : ∃ r, i = .cir r
    · obtain ⟨r, rfl⟩ := hcir
      exact returnFromInterrupt_keepsSpace h
    obtain ⟨hpsw, hlaunch⟩ := control_keeps_status hc (not_exists.mp hcar) (not_exists.mp hcir) h
    exact ⟨by rw [hpsw], by rw [hpsw], by rw [hpsw], hlaunch⟩

theorem step_keepsSpace {s t : State} (h : step s = .next t) : KeepsSpace s t := by
  obtain ⟨sn, -, h⟩ | ⟨l, -, h⟩ | ⟨i, h⟩ := step_eq_next h
  · exact executiveTurn_keepsSpace h
  · exact (takeRequests_keepsSpace s).trans (enterInterrupt_keepsSpace h)
  · exact (takeRequests_keepsSpace s).trans (exec_keepsSpace h)

/-- Settles O8, by induction on the length of the run: the relation is reflexive and transitive, and every step keeps it. -/
theorem mapsAndBlockNeverChange : Obligations.MapsAndBlockNeverChange :=
  reachesIn_keeps KeepsSpace.refl KeepsSpace.trans step_keepsSpace

end Sys2Proof.Machine
end

section
/-! PROOFS. The privilege bit is read by the privileged rows and LCPS alone: every other row commutes with replacing it
(spec/10_state.md R32). Replacing PV is pushed outward: past reads it vanishes, past updates it moves to the result. -/

namespace Sys2Proof.Machine

/-- An answer with PV replaced in its next state; a stop is what it was (R32). -/
def Res.withPv (b : Bool) (x : Res State) : Res State := Res.bind x fun t => .next (t.withPv b)

@[simp] theorem Res.withPv_next (b : Bool) (t : State) : Res.withPv b (.next t) = .next (t.withPv b) := rfl
@[simp] theorem Res.withPv_fault (b : Bool) (e : Fault) : Res.withPv b (.fault e) = .fault e := rfl
@[simp] theorem Res.withPv_refused (b : Bool) (e : Refusal) : Res.withPv b (.refused e) = .refused e := rfl

/-- Replacing PV in what a sequence answers is replacing it in what its second part answers. -/
@[simp] theorem Res.withPv_bind {α : Type} (b : Bool) (x : Res α) (f : α → Res State) :
    Res.withPv b (Res.bind x f) = Res.bind x fun a => Res.withPv b (f a) := by
  cases x <;> rfl

/-- A sequence after an answer with PV replaced. -/
@[simp] theorem Res.bind_withPv {α : Type} (b : Bool) (x : Res State) (f : State → Res α) :
    Res.bind (Res.withPv b x) f = Res.bind x fun t => f (t.withPv b) := by
  cases x <;> rfl

/-! ### What does not read PV -/

@[simp] theorem State.withPv_regs (s : State) (b : Bool) : (s.withPv b).regs = s.regs := rfl
@[simp] theorem State.withPv_pc (s : State) (b : Bool) : (s.withPv b).pc = s.pc := rfl
@[simp] theorem State.withPv_draws (s : State) (b : Bool) : (s.withPv b).draws = s.draws := rfl

@[simp] theorem State.withPv_cond (s : State) (b : Bool) (k : Condition) : (s.withPv b).psw.cond k = s.psw.cond k := by
  cases k <;> rfl

@[simp] theorem readReg_withPv (k : Width) (r : Reg) (s : State) (b : Bool) : readReg k r (s.withPv b) = readReg k r s := rfl
@[simp] theorem readPair_withPv (r : Reg) (s : State) (b : Bool) : readPair r (s.withPv b) = readPair r s := rfl
@[simp] theorem loadWord_withPv (a : Word) (s : State) (b : Bool) : loadWord a (s.withPv b) = loadWord a s := rfl
@[simp] theorem longAddress_withPv (m : LongAddress) (s : State) (b : Bool) :
    longAddress m (s.withPv b) = longAddress m s := rfl
@[simp] theorem indexedAddress_withPv (x : Reg) (s : State) (b : Bool) :
    indexedAddress x (s.withPv b) = indexedAddress x s := rfl
@[simp] theorem byteAddress_withPv (x : Reg) (s : State) (b : Bool) : byteAddress x (s.withPv b) = byteAddress x s := rfl

@[simp] theorem effectiveAddress_withPv (o : MemOperand) (s : State) (b : Bool) :
    effectiveAddress o (s.withPv b) = effectiveAddress o s := by
  cases o <;> rfl

@[simp] theorem loadMulti_withPv (k : Width) (a : Word) (s : State) (b : Bool) :
    loadMulti k a (s.withPv b) = loadMulti k a s := by
  cases k <;> rfl

@[simp] theorem loadWords_withPv (a : Word) (n : Nat) (s : State) (b : Bool) :
    loadWords a n (s.withPv b) = loadWords a n s := by
  induction n generalizing a with
  | zero => rfl
  | succ n ih => simp [loadWords, ih]

@[simp] theorem Src.read_withPv {k : Width} (src : Src k) (s : State) (b : Bool) : src.read (s.withPv b) = src.read s := by
  cases src <;> simp [Src.read, readMem]

/-! ### Updates leave a replaced PV in place -/

@[simp] theorem State.setReg_withPv (s : State) (b : Bool) (k : Width) (r : Reg) (v : BitVec k.bits) :
    (s.withPv b).setReg k r v = (s.setReg k r v).withPv b := rfl
@[simp] theorem State.setCodes_withPv (s : State) (b : Bool) (k : Codes) :
    (s.withPv b).setCodes k = (s.setCodes k).withPv b := rfl
@[simp] theorem State.setZNDrawn_withPv {w : Nat} (s : State) (b : Bool) (v : BitVec w) :
    (s.withPv b).setZNDrawn v = (s.setZNDrawn v).withPv b := rfl
@[simp] theorem State.setAllDrawn_withPv (s : State) (b : Bool) : (s.withPv b).setAllDrawn = s.setAllDrawn.withPv b := rfl
@[simp] theorem State.setQuotient_withPv (s : State) (b : Bool) (q : Word) :
    (s.withPv b).setQuotient q = (s.setQuotient q).withPv b := rfl
@[simp] theorem State.setDivideOverflow_withPv (s : State) (b : Bool) :
    (s.withPv b).setDivideOverflow = s.setDivideOverflow.withPv b := rfl
@[simp] theorem State.advance_withPv (s : State) (b : Bool) (n : Nat) : (s.withPv b).advance n = (s.advance n).withPv b := rfl
@[simp] theorem floatResult_withPv (k : Width) (r : Reg) (x : FpResult k.bits) (n : Nat) (s : State) (b : Bool) :
    floatResult k r x n (s.withPv b) = (floatResult k r x n s).withPv b := rfl

@[simp] theorem Alu.flags_withPv {w : Nat} (op : Alu) (x y : BitVec w) (s : State) (b : Bool) :
    op.flags x y (s.withPv b) = (op.flags x y s).withPv b := by
  cases op <;> rfl

@[simp] theorem State.finish_withPv (s : State) (b : Bool) (nx : Next) (c : Bool) :
    (s.withPv b).finish nx c = (s.finish nx c).withPv b := by
  cases nx <;> rfl

@[simp] theorem State.link_withPv (s : State) (b : Bool) (r : Reg) (n : Nat) :
    (s.withPv b).link r n = (s.link r n).withPv b := by
  unfold State.link
  split <;> rfl

@[simp] theorem storeWord_withPv (a v : Word) (s : State) (b : Bool) :
    storeWord a v (s.withPv b) = Res.withPv b (storeWord a v s) := by
  unfold storeWord
  rw [show (s.withPv b).launched a = s.launched a from rfl]
  split <;> rfl

@[simp] theorem storeWords_withPv (a : Word) (vs : List Word) (s : State) (b : Bool) :
    storeWords a vs (s.withPv b) = Res.withPv b (storeWords a vs s) := by
  induction vs generalizing a s with
  | nil => rfl
  | cons v vs ih => simp [storeWords, ih]

@[simp] theorem storeMulti_withPv (k : Width) (a : Word) (v : BitVec k.bits) (s : State) (b : Bool) :
    storeMulti k a v (s.withPv b) = Res.withPv b (storeMulti k a v s) := storeWords_withPv _ _ _ _

/-! ### The bodies that the rows of one shape share -/

theorem toRegister_withPv (k : Width) (op : Alu) (r : Reg) (src : Src k) (nx : Next) (s : State) (b : Bool) :
    toRegister k op r src nx (s.withPv b) = Res.withPv b (toRegister k op r src nx s) := by simp [toRegister]

theorem toMemory_withPv (op : Alu) (o : MemOperand) (src : Src .single) (nx : Next) (s : State) (b : Bool) :
    toMemory op o src nx (s.withPv b) = Res.withPv b (toMemory op o src nx s) := by simp [toMemory]

theorem inspect_withPv (k : Width) (op : Alu) (x y : Src k) (nx : Next) (s : State) (b : Bool) :
    inspect k op x y nx (s.withPv b) = Res.withPv b (inspect k op x y nx s) := by simp [inspect]

theorem storeRegister_withPv (k : Width) (o : MemOperand) (r : Reg) (n : Nat) (s : State) (b : Bool) :
    storeRegister k o r n (s.withPv b) = Res.withPv b (storeRegister k o r n s) := by simp [storeRegister]

theorem loadFile_withPv (o : MemOperand) (r : Reg) (n : Nat) (s : State) (b : Bool) :
    loadFile o r n (s.withPv b) = Res.withPv b (loadFile o r n s) := by
  simp only [loadFile, readReg_withPv, effectiveAddress_withPv, loadWords_withPv, Res.withPv_bind]
  rfl

theorem storeFile_withPv (o : MemOperand) (r : Reg) (n : Nat) (s : State) (b : Bool) :
    storeFile o r n (s.withPv b) = Res.withPv b (storeFile o r n s) := by simp [storeFile]

theorem shift_withPv (k : Width) (kind : ShiftKind) (r : Reg) (c : Nibble) (s : State) (b : Bool) :
    shift k kind r c (s.withPv b) = Res.withPv b (shift k kind r c s) := by simp [shift]

theorem hopIf_withPv (c : Bool) (n : BitVec 7) (s : State) (b : Bool) :
    hopIf c n (s.withPv b) = Res.withPv b (hopIf c n s) := by
  unfold hopIf
  split <;> rfl

theorem branchIndexedIf_withPv (c : Bool) (x : Reg) (s : State) (b : Bool) :
    branchIndexedIf c x (s.withPv b) = Res.withPv b (branchIndexedIf c x s) := by
  simp only [branchIndexedIf, indexedAddress_withPv, Res.withPv_bind]
  rfl

theorem branchLinkIf_withPv (c : Bool) (r : Reg) (a : Word) (s : State) (b : Bool) :
    branchLinkIf c r a (s.withPv b) = Res.withPv b (branchLinkIf c r a s) := by
  simp only [branchLinkIf, State.link_withPv, State.advance_withPv]
  split <;> rfl

theorem branchLinkLong_withPv (r : Reg) (m : LongAddress) (s : State) (b : Bool) :
    branchLinkLong r m (s.withPv b) = Res.withPv b (branchLinkLong r m s) := by
  simp only [branchLinkLong, longAddress_withPv, State.link_withPv, Res.withPv_bind]
  rfl

theorem branchLinkIndexed_withPv (r x : Reg) (s : State) (b : Bool) :
    branchLinkIndexed r x (s.withPv b) = Res.withPv b (branchLinkIndexed r x s) := by
  simp only [branchLinkIndexed, indexedAddress_withPv, State.link_withPv, Res.withPv_bind]
  rfl

theorem multiply_withPv (r : Reg) (src : Src .single) (n : Nat) (s : State) (b : Bool) :
    multiply r src n (s.withPv b) = Res.withPv b (multiply r src n s) := by simp [multiply]

theorem divide_withPv (r : Reg) (src : Src .single) (n : Nat) (s : State) (b : Bool) :
    divide r src n (s.withPv b) = Res.withPv b (divide r src n s) := by
  simp only [divide, readPair_withPv, Src.read_withPv, Res.withPv_bind]
  congr! 4 with pair v
  split <;> rfl

theorem moveByte_withPv (x y : ByteSide) (r q : Reg) (s : State) (b : Bool) :
    moveByte x y r q (s.withPv b) = Res.withPv b (moveByte x y r q s) := by
  cases y <;> simp [moveByte]

theorem extendSign_withPv (k w : Width) (r q : Reg) (s : State) (b : Bool) :
    extendSign k w r q (s.withPv b) = Res.withPv b (extendSign k w r q s) := by simp [extendSign]

theorem convert_withPv (k : Width) (f : BitVec k.bits → FpResult 32) (r q : Reg) (s : State) (b : Bool) :
    convert k f r q (s.withPv b) = Res.withPv b (convert k f r q s) := by simp [convert]

theorem loadControl_withPv (r : Reg) (v : Word) (s : State) (b : Bool) :
    loadControl r v (s.withPv b) = Res.withPv b (loadControl r v s) := by simp [loadControl]

/-! ### The rows -/

/-- The unprivileged rows that no row table holds, LCPS aside. -/
def unprivilegedAlone : Instr → Bool
  | .lbx _ _ | .sbx _ _ | .sti _ _ | .mlr _ _ | .mbr _ _ | .mur _ _ | .mbl _ _ | .ibr _ _ | .irm _ _ | .irr _ _ | .hop _
  | .blm _ _ | .bli _ | .blx _ _ | .ess _ _ | .esd _ _ | .cdie _ _ | .cfdi _ _ | .coff _ _ | .rex _ | .rmi | .nop | .lcie _
  | .lcia _ | .lcip _ | .lccc _ | .lcpr _ | .sccc _ => true
  | _ => false

theorem unprivilegedAlone_withPv {i : Instr} (hi : unprivilegedAlone i = true) (s : State) (b : Bool) :
    exec i (s.withPv b) = Res.withPv b (exec i s) := by
  cases i <;> first | contradiction | skip
  case lbx r x => show loadByte r x (s.withPv b) = Res.withPv b (loadByte r x s); simp [loadByte]
  case sbx r x => show storeByte r x (s.withPv b) = Res.withPv b (storeByte r x s); simp [storeByte]
  case sti r v => show storeImmediate r (s.withPv b) = Res.withPv b (storeImmediate r s); simp [storeImmediate]
  case mlr r q | mbr r q | mur r q | mbl r q => exact moveByte_withPv _ _ r q s b
  case ibr r q => show interchangeBytes r q (s.withPv b) = Res.withPv b (interchangeBytes r q s); simp [interchangeBytes]
  case irm r m => show interchangeMemory r m (s.withPv b) = Res.withPv b (interchangeMemory r m s); simp [interchangeMemory]
  case irr r q =>
    show interchangeRegisters r q (s.withPv b) = Res.withPv b (interchangeRegisters r q s)
    simp [interchangeRegisters]
  case hop n => exact hopIf_withPv true n s b
  case blm r m => exact branchLinkLong_withPv r m s b
  case bli r => show linkNext r (s.withPv b) = Res.withPv b (linkNext r s); simp [linkNext]
  case blx r x => exact branchLinkIndexed_withPv r x s b
  case ess r q | esd r q => exact extendSign_withPv _ _ r q s b
  case cdie r q | cfdi r q | coff r q => exact convert_withPv _ _ r q s b
  case rex sn => rfl
  case rmi => rfl
  case nop => rfl
  case lcie r | lcia r | lcip r | lccc r | lcpr r => exact loadControl_withPv r _ s b
  case sccc r => show selectCodes r (s.withPv b) = Res.withPv b (selectCodes r s); simp [selectCodes]

/-- Every row that is neither privileged nor LCPS commutes with replacing PV: by the table that holds it. -/
theorem exec_withPv {i : Instr} (hi : isPrivileged i = false) (hlcps : ∀ r, i ≠ .lcps r) (s : State) (b : Bool) :
    exec i (s.withPv b) = Res.withPv b (exec i s) := by
  rcases h0 : registerRow i with _ | ⟨op, row⟩
  case some => simp only [exec_registerRow h0, toRegister_withPv]
  rcases h1 : memoryRow i with _ | ⟨op, row⟩
  case some => simp only [exec_memoryRow h1, toMemory_withPv]
  rcases h2 : inspectRow i with _ | ⟨op, row⟩
  case some => simp only [exec_inspectRow h2, inspect_withPv]
  rcases h3 : storeRow i with _ | row
  case some => simp only [exec_storeRow h3, storeRegister_withPv]
  rcases h4 : loadFileRow i with _ | row
  case some => simp only [exec_loadFileRow h4, loadFile_withPv]
  rcases h5 : storeFileRow i with _ | row
  case some => simp only [exec_storeFileRow h5, storeFile_withPv]
  rcases h6 : shiftRow i with _ | row
  case some => simp only [exec_shiftRow h6, shift_withPv]
  rcases h7 : hopRow i with _ | row
  case some => simp only [exec_hopRow h7, State.withPv_cond, hopIf_withPv]
  rcases h8 : indexedBranchRow i with _ | row
  case some => simp only [exec_indexedBranchRow h8, State.withPv_cond, branchIndexedIf_withPv]
  rcases h9 : linkBranchRow i with _ | row
  case some => simp only [exec_linkBranchRow h9, State.withPv_cond, branchLinkIf_withPv]
  rcases h10 : multiplyRow i with _ | row
  case some => simp only [exec_multiplyRow h10, multiply_withPv]
  rcases h11 : divideRow i with _ | row
  case some => simp only [exec_divideRow h11, divide_withPv]
  rcases h12 : floatRow i with _ | row
  case some =>
    rw [exec_floatRow h12, exec_floatRow h12]
    split <;> simp
  rcases h13 : refusedRow i with _ | r
  case some => simp [exec_refusedRow h13, hi]
  refine unprivilegedAlone_withPv ?_ s b
  cases i <;> first | rfl | contradiction | exact absurd rfl (hlcps _)

/-- Settles O12. -/
theorem unprivilegedRowsIgnorePrivilege : Obligations.UnprivilegedRowsIgnorePrivilege := by
  intro i s b hi hlcps
  rw [exec_withPv hi hlcps]
  cases exec i s <;> rfl

end Sys2Proof.Machine
end

section
/-! PROOFS. A forbidden register number refuses, and an operand that cannot be had stops its row (spec/10_state.md R21, R22;
the order of the stops is log 22). -/

namespace Sys2Proof.Machine

/-! ### Forbidden register numbers -/

/-- A register operand whose number is not admitted refuses (R21, R22). -/
theorem readReg_forbidden {k : Width} {r : Reg} (s : State) (h : k.admits r = false) :
    readReg k r s = .refused (badRegister r) := by
  simp [readReg, h]

/-- A body that reads a forbidden register number first refuses. -/
theorem bind_readReg_forbidden {k : Width} {r : Reg} {s : State} (h : k.admits r = false) (f : BitVec k.bits → Res State) :
    Res.bind (readReg k r s) f = .refused (badRegister r) := by
  rw [readReg_forbidden s h, Res.bind_refused]

/-- Every number but 0 names a single register (R21). -/
theorem admits_single {r : Reg} : Width.admits .single r = true ↔ r ≠ 0#4 := by simp [Width.admits]

/-- Number 0 names no operand of any width (R21). -/
theorem admits_zero (k : Width) : k.admits 0#4 = false := by cases k <;> rfl

/-- The first of the operands that is forbidden, if any, makes `y` refuse. -/
def RefusesForbidden (operands : List (Width × Reg)) (y : Res State) : Prop :=
  ∀ k r, operands.find? (fun p => !p.1.admits p.2) = some (k, r) → y = .refused (badRegister r)

theorem refusesForbidden_nil (y : Res State) : RefusesForbidden [] y := fun _ _ h => by cases h

/-- A body that reads a register operand, and then makes the forbidden ones among the others refuse, does so for all. -/
theorem refusesForbidden_cons {k : Width} {r : Reg} {operands : List (Width × Reg)} {s : State}
    {f : BitVec k.bits → Res State} (h : ∀ v, RefusesForbidden operands (f v)) :
    RefusesForbidden ((k, r) :: operands) (Res.bind (readReg k r s) f) := by
  intro k' r' hfind
  cases hk : k.admits r with
  | true =>
    rw [readReg_admitted s hk, Res.bind_next]
    exact h _ k' r' (by simpa [hk] using hfind)
  | false =>
    obtain ⟨rfl, rfl⟩ : k = k' ∧ r = r' := by simpa [hk] using hfind
    exact bind_readReg_forbidden hk f

/-- A body that reads one register operand before all else. -/
theorem refusesForbidden_one {k : Width} {r : Reg} {s : State} (f : BitVec k.bits → Res State) :
    RefusesForbidden [(k, r)] (Res.bind (readReg k r s) f) := refusesForbidden_cons fun _ => refusesForbidden_nil _

/-- A body that reads two register operands before all else. -/
theorem refusesForbidden_two {k l : Width} {r q : Reg} {s : State} (f : BitVec k.bits → BitVec l.bits → Res State) :
    RefusesForbidden [(k, r), (l, q)] (Res.bind (readReg k r s) fun a => Res.bind (readReg l q s) (f a)) :=
  refusesForbidden_cons fun a => refusesForbidden_one (f a)

/-- In the privileged state the privilege check lets the body through (R602). -/
theorem privileged_of_pv {s : State} (h : s.psw.pv = true) (x : Res State) : privileged s x = x := by simp [privileged, h]

/-- The rows outside the tables read their register operands, in the order of `registerOperands`, before all else but the
privilege check. -/
theorem exec_refusesForbidden (i : Instr) (s : State) (hpv : isPrivileged i = true → s.psw.pv = true) :
    RefusesForbidden (registerOperands i) (exec i s) := by
  have gate : ∀ {ops : List (Width × Reg)} {x : Res State}, s.psw.pv = true → RefusesForbidden ops x →
      RefusesForbidden ops (privileged s x) := fun h hx => by rwa [privileged_of_pv h]
  cases i
  case sti r _ | lbx r _ | sbx r _ | irm r _ | bli r | lcie r | lcia r | lcip r | lccc r | lcps r | lcpr r | sccc r =>
    exact refusesForbidden_one (r := r) _
  case mlr r q | mbr r q | mur r q | mbl r q | ibr r q | irr r q | ess r q | esd r q | cdie r q | cfdi r q | coff r q =>
    exact refusesForbidden_two (r := r) (q := q) _
  case isi _ r _ | idi _ r _ | oci _ r _ | odi _ r _ | car r | cir r =>
    exact gate (hpv rfl) (refusesForbidden_one (r := r) _)
  case ldam r p | stan r p => exact gate (hpv rfl) (refusesForbidden_two (r := r) (q := p) _)
  all_goals exact refusesForbidden_nil _

/-! ### Register numbers in the rows of the tables -/

section Rows

variable {i : Instr} {s : State}

theorem registerRow_forbidden {op : Alu} {row : RegisterRow} (h : registerRow i = some (op, row))
    (hr : row.k.admits row.r = false) : exec i s = .refused (badRegister row.r) := by
  rw [exec_registerRow h]
  exact bind_readReg_forbidden hr _

theorem storeRow_forbidden {row : StoreRow} (h : storeRow i = some row) (hr : row.k.admits row.r = false) :
    exec i s = .refused (badRegister row.r) := by
  rw [exec_storeRow h]
  exact bind_readReg_forbidden hr _

theorem shiftRow_forbidden {row : ShiftRow} (h : shiftRow i = some row) (hr : row.k.admits row.r = false) :
    exec i s = .refused (badRegister row.r) := by
  rw [exec_shiftRow h]
  exact bind_readReg_forbidden hr _

/-- A direct floating-point row reads its register, then its source (R415-R438). -/
theorem exec_floatRow_direct {row : FloatRow} (h : floatRow i = some row) (hdirect : row.indirect = false) :
    exec i s = Res.bind (readReg row.k row.r s) fun a => Res.bind (row.src.read s) fun b =>
      .next (floatResult row.k row.r (row.op.apply row.k.bits a b) row.words s) := by
  rw [exec_floatRow h, hdirect]
  rfl

theorem floatRow_forbidden {row : FloatRow} (h : floatRow i = some row) (hdirect : row.indirect = false)
    (hr : row.k.admits row.r = false) : exec i s = .refused (badRegister row.r) := by
  rw [exec_floatRow_direct h hdirect]
  exact bind_readReg_forbidden hr _

theorem loadFileRow_zero {row : FileRow} (h : loadFileRow i = some row) (hr : row.r = 0#4) :
    exec i s = .refused .registerZero := by
  rw [exec_loadFileRow h, hr]
  exact bind_readReg_forbidden (admits_zero .single) _

theorem storeFileRow_zero {row : FileRow} (h : storeFileRow i = some row) (hr : row.r = 0#4) :
    exec i s = .refused .registerZero := by
  rw [exec_storeFileRow h, hr]
  exact bind_readReg_forbidden (admits_zero .single) _

theorem inspectRow_forbidden {op : Alu} {row : InspectRow} {r : Reg} (h : inspectRow i = some (op, row))
    (hfirst : row.first = .reg r) (hr : row.k.admits r = false) : exec i s = .refused (badRegister r) := by
  rw [exec_inspectRow h, inspect, hfirst]
  exact bind_readReg_forbidden hr _

/-- An integer multiply or divide reads its pair, then its source (R397-R408). -/
theorem exec_pairRow {row : PairRow} (h : multiplyRow i = some row ∨ divideRow i = some row) :
    ∃ f : BitVec 32 → Word → Res State,
      exec i s = Res.bind (readPair row.r s) fun pair => Res.bind (row.src.read s) (f pair) := by
  obtain h | h := h
  · exact ⟨_, exec_multiplyRow h s⟩
  · exact ⟨_, exec_divideRow h s⟩

/-- An odd number is no pair of a multiply or divide (D24). -/
theorem readPair_odd {r : Reg} (h : r.getLsbD 0 = true) : readPair r s = .refused .oddPair := by rw [readPair, h]; rfl

/-- An even number is read as any pair is (D24). -/
theorem readPair_even {r : Reg} (h : r.getLsbD 0 = false) : readPair r s = readReg .double r s := by rw [readPair, h]; rfl

theorem readPair_admitted {r : Reg} (hr : Width.admits .double r = true) :
    readPair r s = .next (s.regs.getMulti .double r) := by
  have heven : r.getLsbD 0 = false := by
    simp only [Width.admits, Bool.and_eq_true, Bool.not_eq_true'] at hr
    exact hr.2
  rw [readPair_even heven, readReg_admitted s hr]

theorem pairRow_forbidden {row : PairRow} (h : multiplyRow i = some row ∨ divideRow i = some row) :
    (row.r.getLsbD 0 = true → exec i s = .refused .oddPair) ∧ (row.r = 0#4 → exec i s = .refused .registerZero) := by
  obtain ⟨f, e⟩ := exec_pairRow (s := s) h
  constructor <;> intro hr <;> rw [e]
  · rw [readPair_odd hr, Res.bind_refused]
  · rw [hr, readPair_even (by decide)]
    exact bind_readReg_forbidden (admits_zero .double) _

/-! ### Operands that cannot be had, in the rows of the tables -/

theorem registerRow_stops {op : Alu} {row : RegisterRow} (h : registerRow i = some (op, row))
    (hr : row.k.admits row.r = true) : StopsAs (row.src.read s) (exec i s) := by
  rw [exec_registerRow h]
  exact stopsAs_bind_next (readReg_admitted s hr) (stopsAs_bind _ _)

theorem memoryRow_stops {op : Alu} {row : MemoryRow} (h : memoryRow i = some (op, row)) :
    StopsAs (row.src.read s) (exec i s) ∧
      ∀ b, row.src.read s = .next b → StopsAs (effectiveAddress row.o s) (exec i s) ∧
        ∀ ea, effectiveAddress row.o s = .next ea → StopsAs (loadWord ea s) (exec i s) := by
  rw [exec_memoryRow h]
  refine ⟨stopsAs_bind _ _, fun b hb => ⟨?_, fun ea hea => ?_⟩⟩
  · exact stopsAs_bind_next hb (stopsAs_bind _ _)
  · exact stopsAs_bind_next hb (stopsAs_bind_next hea (stopsAs_bind _ _))

theorem inspectRow_stops {op : Alu} {row : InspectRow} (h : inspectRow i = some (op, row)) :
    StopsAs (row.first.read s) (exec i s) ∧
      ∀ a, row.first.read s = .next a → StopsAs (row.second.read s) (exec i s) := by
  rw [exec_inspectRow h]
  exact ⟨stopsAs_bind _ _, fun a ha => stopsAs_bind_next ha (stopsAs_bind _ _)⟩

theorem floatRow_stops {row : FloatRow} (h : floatRow i = some row) (hdirect : row.indirect = false)
    (hr : row.k.admits row.r = true) : StopsAs (row.src.read s) (exec i s) := by
  rw [exec_floatRow_direct h hdirect]
  exact stopsAs_bind_next (readReg_admitted s hr) (stopsAs_bind _ _)

theorem pairRow_stops {row : PairRow} (h : multiplyRow i = some row ∨ divideRow i = some row)
    (hr : Width.admits .double row.r = true) : StopsAs (row.src.read s) (exec i s) := by
  obtain ⟨f, e⟩ := exec_pairRow (s := s) h
  rw [e]
  exact stopsAs_bind_next (readPair_admitted hr) (stopsAs_bind _ _)

/-- A multi-word operand is stored as its number of words (R75). -/
@[simp] theorem length_wordsOf (k : Width) (v : BitVec k.bits) : (wordsOf k v).length = k.words := by cases k <;> rfl

/-- A file has as many words as asked for (D23). -/
@[simp] theorem length_file (g : Regs) (r : Reg) (n : Nat) : (g.file r n).length = n := by
  induction n generalizing r with
  | zero => rfl
  | succ n ih => simp [Regs.file, ih]

theorem storeRow_stops {row : StoreRow} (h : storeRow i = some row) (hr : row.k.admits row.r = true) :
    StopsAs (effectiveAddress row.o s) (exec i s) ∧
      ∀ ea, effectiveAddress row.o s = .next ea → (∃ k < row.k.words, s.launched (ea + BitVec.ofNat 16 k) = false) →
        exec i s = .fault .outsideLaunchMemory := by
  rw [exec_storeRow h]
  have hread := readReg_admitted s hr
  refine ⟨stopsAs_bind_next hread (stopsAs_bind _ _), fun ea hea hmissing => ?_⟩
  have hstore : storeMulti row.k ea (s.regs.getMulti row.k row.r) s = .fault .outsideLaunchMemory :=
    storeWords_missing (by rwa [length_wordsOf])
  exact (stopsAs_bind_next hread (stopsAs_bind_next hea (stopsAs_bind _ _))).2 _ hstore

theorem loadFileRow_stops {row : FileRow} (h : loadFileRow i = some row) (hr : row.r ≠ 0#4) :
    StopsAs (effectiveAddress row.o s) (exec i s) ∧
      ∀ ea, effectiveAddress row.o s = .next ea → StopsAs (loadWords ea (16 - row.r.toNat) s) (exec i s) := by
  rw [exec_loadFileRow h]
  have hread := readReg_admitted s (admits_single.mpr hr)
  exact ⟨stopsAs_bind_next hread (stopsAs_bind _ _),
    fun ea hea => stopsAs_bind_next hread (stopsAs_bind_next hea (stopsAs_bind _ _))⟩

theorem storeFileRow_stops {row : FileRow} (h : storeFileRow i = some row) (hr : row.r ≠ 0#4) :
    StopsAs (effectiveAddress row.o s) (exec i s) ∧
      ∀ ea, effectiveAddress row.o s = .next ea →
        (∃ k < 16 - row.r.toNat, s.launched (ea + BitVec.ofNat 16 k) = false) → exec i s = .fault .outsideLaunchMemory := by
  rw [exec_storeFileRow h]
  have hread := readReg_admitted s (admits_single.mpr hr)
  refine ⟨stopsAs_bind_next hread (stopsAs_bind _ _), fun ea hea hmissing => ?_⟩
  have hstore : storeWords ea (s.regs.file row.r (fileSize row.r)) s = .fault .outsideLaunchMemory :=
    storeWords_missing (by rwa [length_file])
  exact (stopsAs_bind_next hread (stopsAs_bind_next hea (stopsAs_bind _ _))).2 _ hstore

/-! ### Operands that cannot be had, in the rows of no table -/

/-- A store of a word at an address that does not exist is stuck (R89). -/
theorem storeWord_missing {a : Word} (v : Word) (h : s.launched a = false) :
    storeWord a v s = .fault .outsideLaunchMemory := by
  rw [storeWord, h]
  rfl

theorem sti_outside {r : Reg} (v : Word) (hr : r ≠ 0#4) (hmissing : s.launched (s.pc + 1) = false) :
    exec (.sti r v) s = .fault .outsideLaunchMemory := by
  have hread := readReg_admitted s (admits_single.mpr hr)
  exact (stopsAs_bind_next hread (stopsAs_bind _ _)).2 _ (storeWord_missing (s.regs.get r) hmissing)

theorem irm_stops {r : Reg} {m : LongAddress} (hr : r ≠ 0#4) :
    StopsAs (longAddress m s) (exec (.irm r m) s) ∧
      ∀ ea, longAddress m s = .next ea → StopsAs (loadWord ea s) (exec (.irm r m) s) := by
  have hread := readReg_admitted s (admits_single.mpr hr)
  exact ⟨stopsAs_bind_next hread (stopsAs_bind _ _),
    fun ea hea => stopsAs_bind_next hread (stopsAs_bind_next hea (stopsAs_bind _ _))⟩

theorem blm_stops (r : Reg) (m : LongAddress) : StopsAs (longAddress m s) (exec (.blm r m) s) := stopsAs_bind _ _

theorem byteRow_stops {r x : Reg} (hi : i = .lbx r x ∨ i = .sbx r x) (hr : r ≠ 0#4) :
    StopsAs (byteAddress x s) (exec i s) ∧
      ∀ a left, byteAddress x s = .next (a, left) → StopsAs (loadWord a s) (exec i s) := by
  have hread := readReg_admitted s (admits_single.mpr hr)
  obtain rfl | rfl := hi <;>
    exact ⟨stopsAs_bind_next hread (stopsAs_bind _ _),
      fun a left ha => stopsAs_bind_next hread (stopsAs_bind_next ha (stopsAs_bind _ _))⟩

theorem ldam_stops {r p : Reg} (hr : r ≠ 0#4) (hp : Width.admits .double p = true) (hpv : s.psw.pv = true) :
    StopsAs (physRead (s.regs.getMulti .double p) s) (exec (.ldam r p) s) := by
  show StopsAs _ (privileged s (loadActual r p s))
  rw [privileged_of_pv hpv]
  exact stopsAs_bind_next (readReg_admitted s (admits_single.mpr hr))
    (stopsAs_bind_next (readReg_admitted s hp) (stopsAs_bind _ _))

theorem stan_stops {r p : Reg} (hr : r ≠ 0#4) (hp : Width.admits .double p = true) (hpv : s.psw.pv = true) :
    StopsAs (physWrite (s.regs.getMulti .double p) (s.regs.get r) s) (exec (.stan r p) s) := by
  show StopsAs _ (privileged s (storeActual r p s))
  rw [privileged_of_pv hpv]
  exact stopsAs_bind_next (readReg_admitted s (admits_single.mpr hr))
    (stopsAs_bind_next (readReg_admitted s hp) (stopsAs_bind _ _))

end Rows

/-- Settles O21, clause by clause in the order of the statement: the forbidden register numbers, then the operands that cannot
be had. -/
theorem unusableOperandsStopTheRow : Obligations.UnusableOperandsStopTheRow := fun i s =>
  ⟨fun _ _ => registerRow_forbidden,
    fun _ => storeRow_forbidden,
    fun _ => shiftRow_forbidden,
    fun _ => floatRow_forbidden,
    fun _ => loadFileRow_zero,
    fun _ => storeFileRow_zero,
    fun _ => pairRow_forbidden,
    fun _ _ _ => inspectRow_forbidden,
    fun k r hfind hpv => exec_refusesForbidden i s hpv k r hfind,
    fun _ _ => registerRow_stops,
    fun _ _ => memoryRow_stops,
    fun _ _ => inspectRow_stops,
    fun _ => floatRow_stops,
    fun _ => pairRow_stops,
    fun _ => storeRow_stops,
    fun _ => loadFileRow_stops,
    fun _ => storeFileRow_stops,
    fun _ v hi => hi ▸ sti_outside v,
    fun _ _ hi => hi ▸ irm_stops,
    fun r m hi => hi ▸ blm_stops r m,
    fun _ _ => byteRow_stops,
    fun _ _ hr hp hpv => ⟨fun hi => hi ▸ ldam_stops hr hp hpv, fun hi => hi ▸ stan_stops hr hp hpv⟩⟩

end Sys2Proof.Machine
end

section
/-! PROOFS. The state at reset, the status word as a number, the adder read on integers, and the character classes
(spec/10_state.md R26, R29, R30, R42). -/

namespace Sys2Proof.Machine

/-! ### The state at reset -/

/-- Settles O7: every value is read off `State.reset`. -/
theorem resetState : Obligations.ResetState := by
  refine ⟨rfl, ⟨List.Pairwise.nil, by simp [State.reset]⟩, fun r => ?_, rfl, by decide, rfl, rfl, rfl, fun _ => rfl,
    fun a => ?_⟩
  · revert r
    decide
  · simpa [State.launched, State.reset] using a.isLt

/-! ### The status word as a number -/

/-- A joined word as a number: the left part counts in units of the right part's range. -/
theorem toNat_append_eq_add {m n : Nat} (x : BitVec m) (y : BitVec n) : (x ++ y).toNat = x.toNat * 2 ^ n + y.toNat := by
  rw [BitVec.toNat_append, ← Nat.shiftLeft_add_eq_or_of_lt y.isLt, Nat.shiftLeft_eq]

/-- A bit of a word as a number. -/
theorem toNat_getLsbD {w : Nat} (x : BitVec w) (k : Nat) : (x.getLsbD k).toNat = x.toNat / 2 ^ k % 2 := by
  rw [← BitVec.testBit_toNat, Nat.toNat_testBit]

/-- A field of a word as a number. -/
theorem toNat_extractLsb' {w : Nat} (x : BitVec w) (k n : Nat) : (x.extractLsb' k n).toNat = x.toNat / 2 ^ k % 2 ^ n := by
  rw [BitVec.extractLsb'_toNat, Nat.shiftRight_eq_div_pow]

/-- The part of a number below `c = a * b` is its field between `a` and `c`, put before its part below `a`. -/
theorem mod_eq_field_add (n : Nat) {a b c : Nat} (h : a * b = c) : n % c = n / a % b * a + n % a := by
  rw [← h, Nat.mod_mul, Nat.add_comm, Nat.mul_comm]

/-- PS as a number: each field at its place (R26). -/
theorem Psw.toNat_toWord (p : Psw) :
    p.toWord.toNat = p.im.toNat * 2 ^ 13 + p.pv.toNat * 2 ^ 12 + p.grb.toNat * 2 ^ 8 + p.om.toNat * 2 ^ 5
      + p.oh.toNat * 2 ^ 4 + p.n.toNat * 8 + p.z.toNat * 4 + p.o.toNat * 2 + p.c.toNat := by
  simp only [Psw.toWord, toNat_append_eq_add, BitVec.toNat_ofBool]
  omega

/-- Two status words with the same fields as numbers are the same. -/
theorem Psw.ext_toNat {p q : Psw} (him : p.im.toNat = q.im.toNat) (hpv : p.pv.toNat = q.pv.toNat)
    (hgrb : p.grb.toNat = q.grb.toNat) (hom : p.om.toNat = q.om.toNat) (hoh : p.oh.toNat = q.oh.toNat)
    (hn : p.n.toNat = q.n.toNat) (hz : p.z.toNat = q.z.toNat) (ho : p.o.toNat = q.o.toNat) (hc : p.c.toNat = q.c.toNat) :
    p = q := by
  have toNat_injective : Function.Injective Bool.toNat := Function.LeftInverse.injective Bool.ofNat_toNat
  cases p
  cases q
  simp only [Psw.mk.injEq]
  exact ⟨BitVec.eq_of_toNat_eq him, toNat_injective hpv, BitVec.eq_of_toNat_eq hgrb, BitVec.eq_of_toNat_eq hom,
    toNat_injective hoh, toNat_injective hn, toNat_injective hz, toNat_injective ho,
    toNat_injective hc⟩

/-- Settles O24: both round trips are arithmetic on the number of `Psw.toNat_toWord`. -/
theorem statusWordLayout : Obligations.StatusWordLayout := by
  refine ⟨fun p => ⟨p.toNat_toWord, ?_⟩, fun w => BitVec.eq_of_toNat_eq ?_⟩
  · have layout := p.toNat_toWord
    have him := p.im.isLt
    have hgrb := p.grb.isLt
    have hom := p.om.isLt
    have hpv := p.pv.toNat_lt
    have hoh := p.oh.toNat_lt
    have hn := p.n.toNat_lt
    have hz := p.z.toNat_lt
    have ho := p.o.toNat_lt
    have hc := p.c.toNat_lt
    apply Psw.ext_toNat <;> simp only [Psw.ofWord, toNat_getLsbD, toNat_extractLsb'] <;> omega
  · have hw : w.toNat % 65536 = w.toNat := Nat.mod_eq_of_lt w.isLt
    have low {a c : Nat} (b : Nat) (h : a * b = c) := mod_eq_field_add w.toNat h
    simp only [Psw.toNat_toWord, Psw.ofWord, toNat_getLsbD, toNat_extractLsb', Nat.reducePow, Nat.div_one]
    calc
      _ = w.toNat % 65536 := by
        rw [low 8 (rfl : 8192 * 8 = 65536), low 2 (rfl : 4096 * 2 = 8192), low 16 (rfl : 256 * 16 = 4096),
          low 8 (rfl : 32 * 8 = 256), low 2 (rfl : 16 * 2 = 32), low 2 (rfl : 8 * 2 = 16),
          low 2 (rfl : 4 * 2 = 8), low 2 (rfl : 2 * 2 = 4)]
        simp only [Nat.add_assoc]
      _ = w.toNat := hw

/-! ### The adder -/

/-- Outside the signed range is above or below it (R10). -/
theorem not_fitsSigned (w : Nat) (x : Int) :
    (!fitsSigned w x) = (decide (x ≥ 2 ^ (w - 1)) || decide (x < -2 ^ (w - 1))) := by
  unfold fitsSigned
  rw [Bool.eq_iff_iff]
  simp only [Bool.not_eq_true', Bool.and_eq_false_iff, decide_eq_false_iff_not, Bool.or_eq_true, decide_eq_true_eq]
  omega

/-- The adder without carry in: sum, unsigned and signed overflow (R29). -/
theorem adder_eq {w : Nat} (a b : BitVec w) : adder a b false = ⟨a + b, (sumCodes a b).c, (sumCodes a b).o⟩ := by
  have hsum : BitVec.ofNat w (a.toNat + b.toNat) = a + b := by simp [BitVec.ofNat_add]
  have hover : (sumCodes a b).o = a.saddOverflow b := not_fitsSigned w _
  rw [hover, BitVec.saddOverflow_eq]
  simp only [adder, Bool.toNat_false, Nat.add_zero, hsum]
  rfl

/-- The subtracter: difference, no borrow, and signed overflow (R29). -/
theorem subtract_eq {w : Nat} (hw : 0 < w) (a b : BitVec w) :
    subtract a b = ⟨a - b, (differenceCodes a b).c, (differenceCodes a b).o⟩ := by
  have htotal : a.toNat + (~~~b).toNat + 1 = a.toNat + (2 ^ w - b.toNat) := by
    have := b.isLt
    rw [BitVec.toNat_not]
    omega
  have hdiff : BitVec.ofNat w (a.toNat + (2 ^ w - b.toNat)) = a - b := by
    apply BitVec.eq_of_toNat_eq
    rw [BitVec.toNat_ofNat, BitVec.toNat_sub, Nat.add_comm]
  have hcarry : decide (2 ^ w ≤ a.toNat + (2 ^ w - b.toNat)) = (differenceCodes a b).c := by
    have := b.isLt
    exact decide_eq_decide.mpr (by omega)
  have hover : (differenceCodes a b).o = (a.msb == (~~~b).msb && (a - b).msb != a.msb) := by
    have hnot : (~~~b).msb = !b.msb := by simp [BitVec.msb_not, hw]
    rw [show (differenceCodes a b).o = a.ssubOverflow b from not_fitsSigned w _, BitVec.ssubOverflow_eq, hnot]
    cases a.msb <;> cases b.msb <;> simp
  simp only [subtract, adder, Bool.toNat_true, htotal, hdiff, hcarry, hover]

/-- A negation overflows for the one number whose negative does not fit (R29). -/
theorem negate_overflow {w : Nat} (hw : 0 < w) (b : BitVec w) :
    (differenceCodes 0#w b).o = (b == BitVec.intMin w) := by
  have hmin : b.negOverflow = (b == BitVec.intMin w) := by simp [BitVec.negOverflow_eq, hw]
  have hlow := BitVec.le_toInt b
  have hhigh := BitVec.toInt_lt (x := b)
  rw [← hmin, show (differenceCodes 0#w b).o = (!fitsSigned w ((0#w).toInt - b.toInt)) from rfl, not_fitsSigned,
    Bool.eq_iff_iff]
  simp only [BitVec.negOverflow, BitVec.toInt_zero, Bool.or_eq_true, decide_eq_true_eq, beq_iff_eq]
  omega

/-- Settles O22, at every width of the integer rows. -/
theorem adderMatchesIntegers : Obligations.AdderMatchesIntegers := by
  intro k a b
  have hw : 0 < k.bits := by cases k <;> decide
  refine ⟨adder_eq a b, subtract_eq hw a b, ?_⟩
  have hcarry : (differenceCodes 0#k.bits b).c = (b == 0#k.bits) := by
    rw [Bool.eq_iff_iff]
    simp [differenceCodes, BitVec.toNat_eq]
  rw [subtract_eq hw, BitVec.zero_sub, hcarry, negate_overflow hw]

/-! ### The character classes -/

/-- The eight codes of 28-2F count up from 8 (R30). -/
theorem classify_counts : ∀ c : Byte, 0x28#8 ≤ c ∧ c ≤ 0x2F#8 →
    4 * (c.getLsbD 2).toNat + 2 * (c.getLsbD 1).toNat + (c.getLsbD 0).toNat = c.toNat - 0x28 := by
  decide

/-- `classify` with its ranges as ranges of numbers (R30). -/
theorem classify_eq (c : Byte) : classify c =
    if 0x28 ≤ c.toNat ∧ c.toNat ≤ 0x2F then ⟨true, c.getLsbD 2, c.getLsbD 1, c.getLsbD 0⟩
    else if c.toNat = 0x20 then ⟨false, false, true, true⟩
    else if 0x30 ≤ c.toNat ∧ c.toNat ≤ 0x39 then ⟨false, true, false, true⟩
    else if 0x41 ≤ c.toNat ∧ c.toNat ≤ 0x5A then ⟨false, false, false, false⟩
    else if 0x61 ≤ c.toNat ∧ c.toNat ≤ 0x7A then Config.chLower c
    else if 0x80 ≤ c.toNat then Config.chHigh c
    else ⟨false, false, false, true⟩ := by
  simp only [classify, BitVec.le_def, BitVec.toNat_eq]
  rfl

/-- Settles O23: each range of the statement meets one branch of `classify_eq` and none before it. -/
theorem charactersAreClassified : Obligations.CharactersAreClassified := by
  intro c
  rw [classify_eq]
  refine ⟨fun h => ?_, fun h => ?_, fun h => ?_, fun h => ?_, fun h => ?_, fun h => ?_, fun h => ?_⟩
  · rw [if_pos h]
    exact ⟨rfl, classify_counts c h⟩
  all_goals
    split_ifs <;> first | rfl | omega

end Sys2Proof.Machine
end

section
/-! PROOFS. The memory: every step keeps its canonical form; what a stored word reads as and where an access stops; the operand
forms (spec/20_memory.md R60-R71, R75, R82, R89; spec/10_state.md R22). -/

namespace Sys2Proof.Machine

/-! ### Every step keeps the canonical form -/

/-- A row that reaches latches, run state or environment leaves memory alone. -/
theorem control_keeps_memory {i : Instr} {s t : State} (hc : reachesControl i = true) (h : exec i s = .next t) :
    t.mem = s.mem := by
  have output : ∀ {e r}, privileged s (outputWord e r s) = .next t → t.mem = s.mem := fun h => by
    obtain ⟨-, h⟩ := privileged_eq_next.mp h
    obtain ⟨-, rfl⟩ := outputWord_eq_next.mp h
    rfl
  have back : ∀ {b r}, returnFromInterrupt b r s = .next t → t.mem = s.mem := fun h => by
    obtain ⟨-, -, l, -, -, rfl⟩ := returnFromInterrupt_eq_next.mp h
    rfl
  cases i <;> first | contradiction | skip
  case rex sn => cases h; rfl
  case rmi => cases h; rfl
  case hlt => rw [eq_of_privileged_next h]; rfl
  case sie l | sia l | sir l | rie l | ria l | rir l => rw [eq_of_privileged_next h]; rfl
  case car r | cir r => exact back h
  case oci j r u | odi j r u => exact output h

/-- Every instruction keeps the canonical form: the rows that reach control leave memory alone, the others are tame. -/
theorem exec_keeps_inv {i : Instr} {s t : State} (hs : s.Inv) (h : exec i s = .next t) : t.Inv := by
  cases hc : reachesControl i with
  | false => exact (exec_tame hc h).wf hs
  | true =>
    unfold State.Inv
    rwa [control_keeps_memory hc h]

/-- The executive's answer is accepted only with a memory in canonical form, whatever the state before (R60). -/
theorem executiveTurn_inv {sn : BitVec 8} {s t : State} (h : executiveTurn sn s = .next t) : t.Inv := by
  obtain ⟨a, -, hwf, -, rfl⟩ := executiveTurn_eq_next.mp h
  exact hwf

/-- An interrupt entry is accepted only with a memory in canonical form, whatever the state before (R60). -/
theorem enterInterrupt_inv {l : BitVec 4} {s t : State} (h : enterInterrupt l s = .next t) : t.Inv := by
  obtain ⟨a, -, hwf, -, rfl, -⟩ := enterInterrupt_eq_next.mp h
  exact hwf

/-- The environment's turn leaves memory alone (R605). -/
theorem takeRequests_keeps_inv {s : State} (hs : s.Inv) : (takeRequests s).Inv := by rwa [State.Inv, takeRequests_mem]

/-- Settles O6, by the three kinds of step that go on. -/
theorem stepKeepsMemoryForm : Obligations.StepKeepsMemoryForm := by
  intro s t hs h
  obtain ⟨sn, -, h⟩ | ⟨l, -, h⟩ | ⟨i, h⟩ := step_eq_next h
  · exact executiveTurn_inv h
  · exact enterInterrupt_inv h
  · exact exec_keeps_inv (takeRequests_keeps_inv hs) h

/-! ### A stored word, and where an access stops -/

/-- The left byte of a written word is at its even byte address (R61). -/
theorem Memory.read_writeWord_left (m : Memory) (a v : Word) :
    (m.writeWord a v).read (2 * a.toNat) = some (v.extractLsb' 8 8) := by
  rw [Memory.writeWord, Memory.read_write_other _ _ _ _ (by omega), Memory.read_write_same]

/-- The right byte of a written word is at its odd byte address (R61). -/
theorem Memory.read_writeWord_right (m : Memory) (a v : Word) :
    (m.writeWord a v).read (2 * a.toNat + 1) = some (v.extractLsb' 0 8) := by
  rw [Memory.writeWord, Memory.read_write_same]

/-- A write of one word leaves every byte outside it as it was (R60, R61). -/
theorem sameBytesOutside_writeWord (s : State) (a v : Word) : SameBytesOutside s { s with mem := s.mem.writeWord a v } a 1 := by
  intro b hb
  obtain ⟨hleft, hright⟩ := hb 0 Nat.one_pos
  rw [BitVec.add_zero] at hleft hright
  exact Memory.read_writeWord_outside _ _ _ _ hleft hright

/-- A read of a word at an address that does not exist is stuck (R89). -/
theorem loadWord_missing {a : Word} {s : State} (h : s.launched a = false) : loadWord a s = .fault .outsideLaunchMemory := by
  simp [loadWord, h]

/-- A read of a word that holds no value refuses, where its address exists (R89). -/
theorem loadWord_unwritten {a : Word} {s : State} (h : s.launched a = true) (hnone : s.mem.readWord a = none) :
    loadWord a s = .refused .unwrittenMemory := by
  simp [loadWord, h, hnone]

/-- Settles O20: the state after a store is the state before it with the word written in memory. -/
theorem memoryReadsAsWrittenOrStops : Obligations.MemoryReadsAsWrittenOrStops := by
  refine ⟨fun a v s t h => ?_, fun a s => ⟨fun hmissing => ?_, fun hlaunched hnone => ?_⟩⟩
  · obtain ⟨hlaunched, rfl⟩ := storeWord_eq_next.mp h
    exact ⟨loadWord_eq_next.mpr ⟨hlaunched, Memory.readWord_writeWord_same _ _ _⟩, Memory.read_writeWord_left _ _ _,
      Memory.read_writeWord_right _ _ _, sameBytesOutside_writeWord s a v, rfl, Memory.wf_writeWord _ _ _⟩
  · exact ⟨loadWord_missing hmissing, fun v => storeWord_missing v hmissing⟩
  · exact ⟨loadWord_unwritten hlaunched hnone, fun v => ⟨_, storeWord_eq_next.mpr ⟨hlaunched, rfl⟩⟩⟩

/-! ### The operand forms -/

/-- A word that is held is read (R89). -/
theorem loadWord_of_holdsWord {s : State} {a v : Word} (h : HoldsWord s a v) : loadWord a s = .next v := loadWord_eq_next.mpr h

/-- A direct long-form address is A, plus the index register where X is not 0 (R62, R63). -/
theorem longAddress_direct (x : BitVec 3) (a : Word) (s : State) :
    longAddress ⟨false, x, a⟩ s = .next (if x = 0#3 then a else a + s.regs.get (x.zeroExtend 4)) := rfl

/-- An indirect long-form address is the word at A, plus the index register where X is not 0 (R64-R66). -/
theorem longAddress_indirect {a p : Word} {s : State} (h : HoldsWord s a p) (x : BitVec 3) :
    longAddress ⟨true, x, a⟩ s = .next (if x = 0#3 then p else p + s.regs.get (x.zeroExtend 4)) := by
  rw [longAddress, if_pos rfl, loadWord_of_holdsWord h, Res.bind_next]

/-- The X field of a long-form address as a register number (R63). -/
theorem zeroExtend_indexField : ∀ x : BitVec 3, x.zeroExtend 4 = 0#1 ++ x := by decide

/-- The short-indexed mode admits the registers 1 to 7 (R69). -/
theorem indexAdmitted_iff : ∀ x : Reg, indexAdmitted x = true ↔ 1 ≤ x.toNat ∧ x.toNat ≤ 7 := by decide

/-- SHORT INDEXED: the content of X for X in 1..7, refused for every other X (R69). -/
theorem indexedAddress_eq (x : Reg) (s : State) :
    indexedAddress x s = if 1 ≤ x.toNat ∧ x.toNat ≤ 7 then .next (s.regs.get x) else .refused .indexRegister := by
  simp only [indexedAddress, indexAdmitted_iff]

/-- A multi-word operand in memory is its words from the address on, the first the most significant (R75). -/
theorem loadMulti_of_holdsWord {a v0 v1 v2 v3 : Word} {s : State} (h0 : HoldsWord s a v0) (h1 : HoldsWord s (a + 1) v1)
    (h2 : HoldsWord s (a + 2) v2) (h3 : HoldsWord s (a + 3) v3) :
    loadMulti .single a s = .next v0 ∧ loadMulti .double a s = .next (v0 ++ v1) ∧
      loadMulti .triple a s = .next (v0 ++ v1 ++ v2) ∧ loadMulti .quad a s = .next (v0 ++ v1 ++ v2 ++ v3) := by
  simp only [loadMulti, loadWord_of_holdsWord h0, loadWord_of_holdsWord h1, loadWord_of_holdsWord h2,
    loadWord_of_holdsWord h3, Res.bind_next, and_self]

/-- The mask of bit BIT is the number 2^(15-BIT) (R71). -/
theorem toNat_bitmask (n : Nibble) : (bitmask n).toNat = 2 ^ (15 - n.toNat) := by
  rw [bitmask_eq_twoPow, BitVec.toNat_twoPow_of_lt (by omega)]

/-- The mask of bit BIT has that bit alone, bit 0 the leftmost (R71). -/
theorem getLsbD_bitmask_eq (n : Nibble) (k : Nat) : (bitmask n).getLsbD k = decide (k = 15 - n.toNat) := by
  have hbit : 15 - n.toNat < 16 := by omega
  rw [bitmask_eq_twoPow, BitVec.getLsbD_twoPow, decide_eq_true hbit, Bool.true_and]
  exact decide_eq_decide.mpr eq_comm

/-- Settles O19, clause by clause: the four long forms, the two short ones, multiples in registers and in memory, the mask. -/
theorem operandFormsOfTheCard : Obligations.OperandFormsOfTheCard := by
  refine ⟨fun x a s => ?direct, fun x a p s h => ?indirect, fun d s => ?displaced, fun x s => indexedAddress_eq x s,
    fun g r => ⟨rfl, rfl, rfl⟩, fun a v0 v1 v2 v3 s h0 h1 h2 h3 => loadMulti_of_holdsWord h0 h1 h2 h3,
    fun n => ⟨toNat_bitmask n, fun k _ => getLsbD_bitmask_eq n k⟩⟩
  case direct => rw [effectiveAddress, longAddress_direct, zeroExtend_indexField]
  case indirect => rw [effectiveAddress, longAddress_indirect h, zeroExtend_indexField]
  case displaced => rw [effectiveAddress, BitVec.ofNat_toNat]

end Sys2Proof.Machine
end

section
/-! PROOFS. Decoding and encoding are each other's inverse on what an instruction word carries: every row by the format of its
word, the op-code map row by row, and the op-code bytes that the map leaves unassigned (spec/30_encoding.md R100-R124). -/

namespace Sys2Proof

/-! ### Decoding by the op-code map -/

/-- No parameter row has an encoding, so the op-code map alone decides (R123). -/
theorem decodeHead_eq (w : Word) : decodeHead w = decodeOp (opByte w) (rNibble w) (sNibble w) := rfl

/-- Where the op-code map has a shape for a joined word, the words after it are read as that shape says. -/
theorem decodeWords_of_decodeOp {o : Byte} {r q : Nibble} {shape : Shape} {ws rest : List Word} {i : Instr}
    (hmap : decodeOp o r q = some shape) (hread : shape.read ws = .ok (i, rest)) :
    decodeWords (joinWord o r q :: ws) = .ok (i, rest) := by
  rw [decodeWords_joinWord, hmap]
  exact hread

/-! ### The fields of a word read back -/

section SharedBit
variable {r q : Nibble}

/-- A number that an instruction may carry has its shared bit clear (R116). -/
theorem low_of_even (h : evenNumber r = true) : (!r.getLsbD 0) = true := h

/-- The nibble with the shared bit set (R116). -/
theorem low_of_marked : (r ||| 1#4).getLsbD 0 = true := by simp

/-- The nibble with the shared bit set does not read as one with the bit clear (R116). -/
theorem not_low_of_marked : ¬ (!(r ||| 1#4).getLsbD 0) = true := by simp

/-- The number is read back from a nibble with the shared bit clear (R116). -/
theorem clearLow_of_unmarked (h : evenNumber r = true) : clearLow r = r := (clearLow_of_even r h).1

/-- The number is read back from a nibble with the shared bit set (R116). -/
theorem clearLow_of_marked (h : evenNumber r = true) : clearLow (r ||| 1#4) = r := (clearLow_of_even r h).2.1

end SharedBit

section Hop
variable (n : BitVec 7)

/-- The displacement is read back from the nibbles of a hop (R111). -/
theorem hopField_joined (inv : Bool) : hopField (hopHigh inv n) (hopLow n) = n := (hopField_hopHigh_hopLow inv n).1

/-- The inverting bit is read back from the R nibble of a hop (R111). -/
theorem getLsbD_hopHigh (inv : Bool) : (hopHigh inv n).getLsbD 3 = inv := (hopField_hopHigh_hopLow inv n).2

end Hop

/-- The number of an executive request is read back from its two nibbles (R101). -/
theorem byte_of_nibbles : ∀ b : Byte, b.extractLsb' 4 4 ++ b.extractLsb' 0 4 = b := by decide

/-- The four I/O groups (R115). -/
theorem ioGroup_cases : ∀ j : BitVec 2, j = 0#2 ∨ j = 1#2 ∨ j = 2#2 ∨ j = 3#2 := by decide

/-! ### Every row by the format of its word -/

/-- The words of a well-formed instruction decode to it, whatever words follow. -/
theorem decodeWords_encode {i : Instr} (rest : List Word) (hi : i.WellFormed = true) :
    decodeWords (encode i ++ rest) = .ok (i, rest) := by
  cases i
  case nop | cri | sccc => cases hi
  -- the long memory format
  case ldm r m | lfm r m | stm r m | sfm r m | irm r m | zbmm r m | etmm r m | etm r m | obmm r m | ormm r m | orm r m
      | xom r m | crm r m | tbmm r m | blm r m | abmm r m | admm r m | adm r m | sum r m | mpm r m | dvm r m | plm r m b
      | psm r m b | zmmb r m b | etmb r m b | tbmb r m b | trmb r m b | abmb r m b | admb r m b | cbmb r m b c | crmb r m b c =>
    exact decodeWords_of_decodeOp rfl (by simp [Shape.read])
  -- a shared bit that is clear, tested first
  case rad r q | lad r q | rld r q | lld r q | crrd r q | adrd r q | surd r q | mprd r q | dvrd r q | ttrd r q | ttrq r q =>
    exact decodeWords_of_decodeOp (if_pos (low_of_even hi)) (by rw [clearLow_of_unmarked hi]; rfl)
  case fam r m | famd r m | fsm r m | fsmd r m | fmm r m | fmmd r m | fdm r m | fdmd r m =>
    exact decodeWords_of_decodeOp (if_pos (low_of_even hi)) (by simp [Shape.read, clearLow_of_unmarked hi])
  -- a shared bit that is clear, the row beside it tested first
  case trrd r q | trrq r q | esd r q | ldam q r | stan q r =>
    exact decodeWords_of_decodeOp (if_neg (by simpa using low_of_even hi)) (by rw [clearLow_of_unmarked hi]; rfl)
  -- a shared bit that is set, tested first
  case ldvm q r | stvm q r | ldxd r q | stxd r q | ess r q =>
    exact decodeWords_of_decodeOp (if_pos low_of_marked) (by rw [clearLow_of_marked hi]; rfl)
  case ldmd r m | stmd r m | admd r m =>
    exact decodeWords_of_decodeOp (if_pos low_of_marked) (by simp [Shape.read, clearLow_of_marked hi])
  -- a shared bit that is set, the row beside it tested first
  case raq r q | laq r q | rlq r q | llq r q =>
    exact decodeWords_of_decodeOp (if_neg not_low_of_marked) (by rw [clearLow_of_marked hi]; rfl)
  case crmd r m | sumd r m | mpmd r m | dvmd r m | famq r m | fsmq r m | fmmq r m | fdmq r m =>
    exact decodeWords_of_decodeOp (if_neg not_low_of_marked) (by simp [Shape.read, clearLow_of_marked hi])
  -- a shared bit in each nibble
  case far r q | fard r q | fsr r q | fsrd r q | fmr r q | fmrd r q | fdr r q | fdrd r q =>
    obtain ⟨hr, hq⟩ := Bool.and_eq_true_iff.mp hi
    have hboth := Bool.and_eq_true_iff.mpr ⟨low_of_even hr, low_of_even hq⟩
    exact decodeWords_of_decodeOp (if_pos hboth) (by rw [clearLow_of_unmarked hr, clearLow_of_unmarked hq]; rfl)
  case farq r q | fsrq r q | fmrq r q | fdrq r q =>
    obtain ⟨hr, hq⟩ := Bool.and_eq_true_iff.mp hi
    have hboth := Bool.and_eq_true_iff.mpr ⟨low_of_marked (r := r), low_of_even hq⟩
    exact decodeWords_of_decodeOp ((if_neg (by simp)).trans (if_pos hboth))
      (by rw [clearLow_of_marked hr, clearLow_of_unmarked hq]; rfl)
  case cdie r q =>
    obtain ⟨hr, hq⟩ := Bool.and_eq_true_iff.mp hi
    have hboth := Bool.and_eq_true_iff.mpr ⟨low_of_even hr, low_of_marked (r := q)⟩
    exact decodeWords_of_decodeOp ((if_neg (by simp)).trans (if_pos hboth))
      (by rw [clearLow_of_unmarked hr, clearLow_of_marked hq]; rfl)
  case cfdi r q | coff r q =>
    obtain ⟨hr, hq⟩ := Bool.and_eq_true_iff.mp hi
    have hboth := Bool.and_eq_true_iff.mpr ⟨low_of_even hr, low_of_marked (r := q)⟩
    exact decodeWords_of_decodeOp ((if_neg (by simp)).trans ((if_neg (by simp)).trans (if_pos hboth)))
      (by rw [clearLow_of_unmarked hr, clearLow_of_marked hq]; rfl)
  -- the hop format: the inverting bit selects the row
  case hzr n | hnr n | hcr n | hor n | hnh n =>
    exact decodeWords_of_decodeOp (if_pos (getLsbD_hopHigh n true)) (by rw [hopField_joined]; rfl)
  case hzs n | hns n | hcs n | hos n | hhi n =>
    exact decodeWords_of_decodeOp (if_neg (by rw [getLsbD_hopHigh]; decide)) (by rw [hopField_joined]; rfl)
  case hop n | hls n | hle n =>
    exact decodeWords_of_decodeOp (if_pos (by rw [getLsbD_hopHigh]; decide)) (by rw [hopField_joined]; rfl)
  case blt n | hge n | hgt n =>
    exact decodeWords_of_decodeOp (if_neg (by rw [getLsbD_hopHigh]; decide)) (by rw [hopField_joined]; rfl)
  -- the register group of the I/O rows is in the op-code byte
  case isi j r u | idi j r u | oci j r u | odi j r u =>
    obtain rfl | rfl | rfl | rfl := ioGroup_cases j <;> exact decodeWords_of_decodeOp rfl rfl
  case zomp r =>
    exact decodeWords_of_decodeOp (if_neg (by simpa [Instr.WellFormed, nonzeroField] using hi)) rfl
  case rex sn => exact decodeWords_of_decodeOp rfl (by rw [byte_of_nibbles]; rfl)
  -- every other row: its fields stand in the word as they are
  all_goals exact decodeWords_of_decodeOp rfl rfl

/-- Decoding reads the same from words and from their bytes (R61). -/
theorem decode_bytesOfWords (ws : List Word) : decode (bytesOfWords ws) = decodeWords ws := by
  rw [decode, wordsOfBytes_bytesOfWords]

/-- Settles O1, by the decoding of words; the bytes of words are read back as those words. -/
theorem encodedInstructionDecodes : Obligations.EncodedInstructionDecodes := by
  intro i rest hi
  rw [decode_bytesOfWords]
  exact ⟨decodeWords_encode rest hi, decodeWords_encode rest hi⟩

/-- Settles O3: each sample is the encoding of its instruction. -/
theorem sampleWordsDecode : Obligations.SampleWordsDecode :=
  ⟨decodeWords_encode (i := .trr 2#4 3#4) [] rfl, decodeWords_encode (i := .zbr 2#4 3#4) [] rfl,
    decodeWords_encode (i := .raq 8#4 3#4) [] rfl, decodeWords_encode (i := .ldmd 6#4 ⟨true, 2#3, 0x0200#16⟩) [] rfl,
    decodeWords_encode (i := .ldt 5#4 0x1234#16) [] rfl, decodeWords_encode (i := .lds 2#4 7#4) [] rfl,
    decodeWords_encode (i := .ldx 2#4 3#4) [] rfl,
    decodeWords_encode (i := .crmb 2#4 ⟨false, 1#3, 0x0200#16⟩ 0x0300#16 0x0400#16) [] rfl,
    decodeWords_encode (i := .hzs 0x7D#7) [] rfl, decodeWords_encode (i := .bxr 3#4) [] rfl,
    decodeWords_encode (i := .blcr 4#4 0x0300#16) [] rfl, decodeWords_encode (i := .lcie 2#4) [] rfl,
    decodeWords_encode (i := .sie 3#4) [] rfl, decodeWords_encode (i := .isi 2#2 3#4 5#4) [] rfl⟩

/-! ### The op-code map, row by row -/

/-- The sixteen values of a nibble. -/
theorem nibble_cases {P : Nibble → Prop} (n0 : P 0#4) (n1 : P 1#4) (n2 : P 2#4) (n3 : P 3#4) (n4 : P 4#4) (n5 : P 5#4)
    (n6 : P 6#4) (n7 : P 7#4) (n8 : P 8#4) (n9 : P 9#4) (nA : P 10#4) (nB : P 11#4) (nC : P 12#4) (nD : P 13#4)
    (nE : P 14#4) (nF : P 15#4) (n : Nibble) : P n := by
  have hn : n = 0#4 ∨ n = 1#4 ∨ n = 2#4 ∨ n = 3#4 ∨ n = 4#4 ∨ n = 5#4 ∨ n = 6#4 ∨ n = 7#4 ∨ n = 8#4 ∨ n = 9#4 ∨ n = 10#4
      ∨ n = 11#4 ∨ n = 12#4 ∨ n = 13#4 ∨ n = 14#4 ∨ n = 15#4 := by revert n; decide
  rcases hn with rfl | rfl | rfl | rfl | rfl | rfl | rfl | rfl | rfl | rfl | rfl | rfl | rfl | rfl | rfl | rfl <;> assumption

/-- The instruction is well formed, and its words are one with the op-code byte `o` and the given ones after it. -/
def Instr.EncodesTo (i : Instr) (o : Byte) (more : List Word) : Prop :=
  i.WellFormed = true ∧ ∃ e, encode i = e :: more ∧ opByte e = o

/-- Whatever the shape makes of following words encodes to the op-code byte `o` and those words. -/
def Shape.EncodesTo (o : Byte) : Shape → Prop
  | .one i => i.EncodesTo o []
  | .two f => ∀ a, (f a).EncodesTo o [a]
  | .three f => ∀ a b, (f a b).EncodesTo o [a, b]
  | .four f => ∀ a b c, (f a b c).EncodesTo o [a, b, c]

/-- What the op-code map has at the op-code byte `o`, if anything, encodes to that byte again. -/
def MapEntry (o : Byte) (entry : Option Shape) : Prop := ∀ shape ∈ entry, shape.EncodesTo o

/-- What a shape reads is its instruction over the very words it takes. -/
theorem encodesTo_of_read {o : Byte} {shape : Shape} {ws rest : List Word} {i : Instr} (hs : shape.EncodesTo o)
    (h : shape.read ws = .ok (i, rest)) : ∃ more, ws = more ++ rest ∧ i.EncodesTo o more := by
  unfold Shape.read at h
  split at h <;> cases h
  case h_1 => exact ⟨[], rfl, hs⟩
  case h_2 a => exact ⟨[a], rfl, hs a⟩
  case h_3 a b => exact ⟨[a, b], rfl, hs a b⟩
  case h_4 a b c => exact ⟨[a, b, c], rfl, hs a b c⟩

namespace MapEntry
variable {o : Byte}

/-- Where the map has no row there is nothing to encode (R122). -/
theorem none : MapEntry o none := nofun

/-- Two rows that share an op-code byte (R116, R124). -/
theorem ite {c : Prop} [Decidable c] {x y : Option Shape} (hx : c → MapEntry o x) (hy : ¬ c → MapEntry o y) :
    MapEntry o (if c then x else y) := by
  split
  case isTrue h => exact hx h
  case isFalse h => exact hy h

/-- A row of one word (R100). -/
theorem one {i : Instr} {r q : Nibble} (hi : i.WellFormed = true) (he : encode i = [joinWord o r q]) : MapEntry o (some (.one i)) := by
  rintro _ ⟨⟩
  exact ⟨hi, _, he, opByte_joinWord _ _ _⟩

/-- A row with one following word (R110). -/
theorem two {f : Word → Instr} {r q : Word → Nibble} (hi : ∀ a, (f a).WellFormed = true)
    (he : ∀ a, encode (f a) = [joinWord o (r a) (q a), a]) : MapEntry o (some (.two f)) := by
  rintro _ ⟨⟩ a
  exact ⟨hi a, _, he a, opByte_joinWord _ _ _⟩

/-- A row with two following words (R110). -/
theorem three {f : Word → Word → Instr} {r q : Word → Word → Nibble} (hi : ∀ a b, (f a b).WellFormed = true)
    (he : ∀ a b, encode (f a b) = [joinWord o (r a b) (q a b), a, b]) : MapEntry o (some (.three f)) := by
  rintro _ ⟨⟩ a b
  exact ⟨hi a b, _, he a b, opByte_joinWord _ _ _⟩

/-- A row with three following words (R110). -/
theorem four {f : Word → Word → Word → Instr} {r q : Word → Word → Word → Nibble} (hi : ∀ a b c, (f a b c).WellFormed = true)
    (he : ∀ a b c, encode (f a b c) = [joinWord o (r a b c) (q a b c), a, b, c]) : MapEntry o (some (.four f)) := by
  rintro _ ⟨⟩ a b c
  exact ⟨hi a b c, _, he a b c, opByte_joinWord _ _ _⟩

end MapEntry

/-- Both numbers of a floating-point row are read with their shared bits clear (R116). -/
theorem evenNumber_clearLow_both (r q : Nibble) : (evenNumber (clearLow r) && evenNumber (clearLow q)) = true :=
  Bool.and_eq_true_iff.mpr ⟨evenNumber_clearLow r, evenNumber_clearLow q⟩

/-! Each row of the map by its entries (R121): the low digit of the op-code byte, and where rows share a byte, the nibble or the
shared bit that tells them apart. -/

section Rows
variable (lo r q : Nibble)

theorem decodeRow0_mapEntry : MapEntry (0#4 ++ lo) (decodeRow0 lo r q) := by
  cases lo using nibble_cases
  case n1 =>
    cases r using nibble_cases
    case n1 => exact .ite (fun _ => .one rfl rfl) fun _ => .none
    case n8 => exact .ite (fun _ => .one rfl rfl) fun hq => .one (bne_iff_ne.mpr hq) rfl
    case n6 | n7 | nB | nF => exact .none
    all_goals exact .one rfl rfl
  case n2 =>
    cases r using nibble_cases
    case n0 => exact .ite (fun _ => .one rfl rfl) fun _ => .none
    case n8 => exact .one rfl rfl
    all_goals exact .none
  case n3 | n4 =>
    cases r using nibble_cases
    case n0 => exact .one rfl rfl
    all_goals exact .none
  case nE =>
    cases q using nibble_cases
    case n0 | n1 | n2 | n3 | n4 | n5 | n6 => exact .one rfl rfl
    all_goals exact .none
  all_goals exact .one rfl rfl

theorem decodeRow2_mapEntry : MapEntry (2#4 ++ lo) (decodeRow2 lo r q) := by
  have hr := evenNumber_clearLow r
  cases lo using nibble_cases
  case n2 => exact .ite (fun _ => .one hr rfl) fun _ => .none
  case n4 | n5 =>
    cases r using nibble_cases
    case n0 => exact .one rfl rfl
    all_goals exact .none
  case n6 | n7 =>
    cases r using nibble_cases
    case n0 | n4 | n8 => exact .one rfl rfl
    all_goals exact .none
  case n8 | nA | nC | nE => exact .ite (fun _ => .one hr rfl) fun _ => .one hr rfl
  all_goals exact .one rfl rfl

theorem decodeRow3_mapEntry : MapEntry (3#4 ++ lo) (decodeRow3 lo r q) := by
  have hr := evenNumber_clearLow r
  have hboth := evenNumber_clearLow_both r q
  cases lo using nibble_cases
  case n1 | n2 | n3 => exact .ite (fun _ => .one hboth rfl) fun _ => .none
  case n0 | n6 | n7 => exact .ite (fun _ => .one hboth rfl) fun _ => .ite (fun _ => .one hboth rfl) fun _ => .none
  case n4 | n5 =>
    exact .ite (fun _ => .one hboth rfl) fun _ => .ite (fun _ => .one hboth rfl) fun _ =>
      .ite (fun _ => .one hboth rfl) fun _ => .none
  case n8 | n9 | nA | nB => exact .ite (fun _ => .two (fun _ => hr) fun _ => rfl) fun _ => .none
  case nC | nD | nE | nF => exact .ite (fun _ => .two (fun _ => hr) fun _ => rfl) fun _ => .two (fun _ => hr) fun _ => rfl

theorem decodeRow4_mapEntry : MapEntry (4#4 ++ lo) (decodeRow4 lo r q) := by
  cases lo using nibble_cases
  all_goals exact .one rfl rfl

theorem decodeRow6_mapEntry : MapEntry (6#4 ++ lo) (decodeRow6 lo r q) := by
  cases lo using nibble_cases
  all_goals exact .one rfl rfl

theorem decodeRow7_mapEntry : MapEntry (7#4 ++ lo) (decodeRow7 lo r q) := by
  cases lo using nibble_cases
  all_goals exact .two (fun _ => rfl) fun _ => rfl

theorem decodeRow8_mapEntry : MapEntry (8#4 ++ lo) (decodeRow8 lo r q) := by
  have hr := evenNumber_clearLow r
  cases lo using nibble_cases
  case n0 | n1 | n2 | n3 => exact .two (fun _ => rfl) fun _ => rfl
  case n4 | n5 | n6 => exact .three (fun _ _ => rfl) fun _ _ => rfl
  case n7 => exact .four (fun _ _ _ => rfl) fun _ _ _ => rfl
  case n8 | n9 => exact .none
  case nA | nB | nE => exact .ite (fun _ => .one hr rfl) fun _ => .none
  case nC | nD => exact .ite (fun _ => .one hr rfl) fun _ => .one hr rfl
  case nF =>
    cases r using nibble_cases
    case n7 | nF => exact .none
    all_goals exact .one rfl rfl

theorem decodeRow9_mapEntry : MapEntry (9#4 ++ lo) (decodeRow9 lo r q) := by
  cases lo using nibble_cases
  case n4 | n5 | n6 | nC | nD | nE => exact .two (fun _ => rfl) fun _ => rfl
  case n7 | nF => exact .three (fun _ _ => rfl) fun _ _ => rfl
  all_goals exact .one rfl rfl

theorem decodeRowA_mapEntry : MapEntry (10#4 ++ lo) (decodeRowA lo r q) := by
  have hr := evenNumber_clearLow r
  cases lo using nibble_cases
  case n0 | n1 | n4 | n5 => exact .two (fun _ => rfl) fun _ => rfl
  case n2 | n3 => exact .ite (fun _ => .one hr rfl) fun _ => .two (fun _ => hr) fun _ => rfl
  case n6 | n8 | n9 | nA | nB | nC | nD => exact .ite (fun _ => .one rfl rfl) fun _ => .one rfl rfl
  case n7 =>
    cases r using nibble_cases
    case n7 | nF => exact .none
    all_goals exact .two (fun _ => rfl) fun _ => rfl
  case nE | nF => exact .one rfl rfl

theorem decodeRowB_mapEntry : MapEntry (11#4 ++ lo) (decodeRowB lo r q) := by
  have hq := evenNumber_clearLow q
  cases lo using nibble_cases
  case n2 => exact .none
  case n6 => exact .two (fun _ => rfl) fun _ => rfl
  case nA | nB => exact .three (fun _ _ => rfl) fun _ _ => rfl
  case nE | nF => exact .ite (fun _ => .one hq rfl) fun _ => .one hq rfl
  all_goals exact .one rfl rfl

theorem decodeRowC_mapEntry : MapEntry (12#4 ++ lo) (decodeRowC lo r q) := by
  have hr := evenNumber_clearLow r
  cases lo using nibble_cases
  case n0 | n1 | n2 | n3 => exact .two (fun _ => rfl) fun _ => rfl
  case n4 | n5 | n6 => exact .three (fun _ _ => rfl) fun _ _ => rfl
  case n7 => exact .four (fun _ _ _ => rfl) fun _ _ _ => rfl
  case n8 | nA | nC => exact .none
  case n9 | nF => exact .ite (fun _ => .one hr rfl) fun _ => .two (fun _ => hr) fun _ => rfl
  case nB | nE => exact .ite (fun _ => .two (fun _ => hr) fun _ => rfl) fun _ => .none
  case nD => exact .ite (fun _ => .two (fun _ => hr) fun _ => rfl) fun _ => .one hr rfl

theorem decodeRowD_mapEntry : MapEntry (13#4 ++ lo) (decodeRowD lo r q) := by
  cases lo using nibble_cases
  case n4 | n5 | n6 | nC | nD | nE => exact .two (fun _ => rfl) fun _ => rfl
  case n7 | nF => exact .three (fun _ _ => rfl) fun _ _ => rfl
  all_goals exact .one rfl rfl

theorem decodeRowE_mapEntry : MapEntry (14#4 ++ lo) (decodeRowE lo r q) := by
  cases lo using nibble_cases
  case nF => exact .one rfl rfl
  all_goals exact .two (fun _ => rfl) fun _ => rfl

theorem decodeRowF_mapEntry : MapEntry (15#4 ++ lo) (decodeRowF lo r q) := by
  cases lo using nibble_cases
  case n7 => exact .ite (fun _ => .one rfl rfl) fun _ => .one rfl rfl
  all_goals exact .one rfl rfl

/-- What the op-code map has for a word encodes to that word's op-code byte again (R121). -/
theorem decodeOp_mapEntry (op : Byte) : MapEntry op (decodeOp op r q) := by
  have hop := byte_of_nibbles op
  unfold decodeOp
  generalize op.extractLsb' 4 4 = hi at *
  generalize op.extractLsb' 0 4 = lo at *
  subst hop
  cases hi using nibble_cases
  case n0 => exact decodeRow0_mapEntry lo r q
  case n1 | n5 => exact .none
  case n2 => exact decodeRow2_mapEntry lo r q
  case n3 => exact decodeRow3_mapEntry lo r q
  case n4 => exact decodeRow4_mapEntry lo r q
  case n6 => exact decodeRow6_mapEntry lo r q
  case n7 => exact decodeRow7_mapEntry lo r q
  case n8 => exact decodeRow8_mapEntry lo r q
  case n9 => exact decodeRow9_mapEntry lo r q
  case nA => exact decodeRowA_mapEntry lo r q
  case nB => exact decodeRowB_mapEntry lo r q
  case nC => exact decodeRowC_mapEntry lo r q
  case nD => exact decodeRowD_mapEntry lo r q
  case nE => exact decodeRowE_mapEntry lo r q
  case nF => exact decodeRowF_mapEntry lo r q

end Rows

/-- Settles O2, by what the op-code map has for the first word. -/
theorem decodedInstructionIsWellFormed : Obligations.DecodedInstructionIsWellFormed := by
  intro ws i rest h
  cases ws with
  | nil => cases h
  | cons w ws =>
    rw [decodeWords, decodeHead_eq] at h
    split at h
    case h_1 => cases h
    case h_2 shape hmap =>
      obtain ⟨more, rfl, hwf, e, he, hop⟩ := encodesTo_of_read (decodeOp_mapEntry _ _ _ shape hmap) h
      exact ⟨hwf, w, e, more, rfl, he, hop⟩

/-! ### Unassigned op-code bytes -/

/-- No row of the op-code map has one of the 38 unassigned op-code bytes (R122). -/
theorem decodeOp_unassigned {op : Byte} (h : op.extractLsb' 4 4 = 1#4 ∨ op.extractLsb' 4 4 = 5#4
    ∨ op ∈ [0x88#8, 0x89#8, 0xB2#8, 0xC8#8, 0xCA#8, 0xCC#8]) (r q : Nibble) : decodeOp op r q = none := by
  obtain hrow | hrow | hbyte := h
  · rw [decodeOp, hrow]; rfl
  · rw [decodeOp, hrow]; rfl
  · simp only [List.mem_cons, List.not_mem_nil, or_false] at hbyte
    obtain rfl | rfl | rfl | rfl | rfl | rfl := hbyte <;> rfl

end Sys2Proof

namespace Sys2Proof.Machine

/-- A running machine that answers no request and takes no interrupt fetches and executes, after the environment's turn. -/
theorem step_eq_fetchAndRun {s : State} (hrun : s.run = .running) (hpending : s.pending = none)
    (hquiet : recognise (takeRequests s) = none) : step s = fetchAndRun exec (takeRequests s) := by
  simp only [step, hrun, hpending, hquiet]

/-- A fetched word that no row of the op-code map matches is the fault of R603. -/
theorem fetchAndRun_unimplemented {run : Instr → State → Res State} {s : State} {w : Word} (hw : HoldsWord s s.pc w)
    (hnone : decodeHead w = none) : fetchAndRun run s = .fault .unimplementedInstruction := by
  rw [fetchAndRun, loadWord_of_holdsWord hw, Res.bind_next, hnone]
  rfl

/-- The environment's turn leaves every word held where it is (R605). -/
theorem holdsWord_takeRequests {s : State} {a v : Word} (h : HoldsWord s a v) : HoldsWord (takeRequests s) a v := by
  simpa [HoldsWord, State.launched] using h

/-- Settles O4: the op-code map has no row, and the fetch that finds none faults. -/
theorem unassignedWordIsNoInstruction : Obligations.UnassignedWordIsNoInstruction := by
  intro w hop
  have hnone : decodeHead w = none := decodeOp_unassigned hop _ _
  refine ⟨hnone, fun s hrun hpending hquiet hw => ?_⟩
  rw [step_eq_fetchAndRun hrun hpending hquiet]
  exact fetchAndRun_unimplemented (by rw [takeRequests_pc]; exact holdsWord_takeRequests hw) hnone

end Sys2Proof.Machine
end

section
/-! PROOFS. The move instructions: loads and transfers, stores, the file rows, the byte moves and the interchanges, and the
rows that refuse because the spec gives them no meaning (spec/40_move.md R200-R234; spec/00_scope.md R7). -/

namespace Sys2Proof.Machine

/-! ### Loads and transfers -/

/-- What every row with a register destination does once its operands are had: the result in the register or multiple, the codes
of the operation, the row's own end, and nothing else (R78). -/
theorem registerRow_exec {i : Instr} {op : Alu} {row : RegisterRow} {s : State} {b : BitVec row.k.bits}
    (h : registerRow i = some (op, row)) (hr : row.k.admits row.r = true) (hb : row.src.read s = .next b) :
    ∃ t, exec i s = .next t ∧ WritesRegister s t row.k row.r (op.result (s.regs.getMulti row.k row.r) b) ∧
      EndsAs row.nx s t (op.result (s.regs.getMulti row.k row.r) b) ∧
      t.psw = (op.flags (s.regs.getMulti row.k row.r) b s).psw ∧
      t.draws = (op.flags (s.regs.getMulti row.k row.r) b s).draws := by
  rw [exec_registerRow h]
  refine ⟨_, toRegister_eq_next.mpr ⟨hr, b, hb, rfl⟩, writesRegister_toRegister hr, ?_, rfl, rfl⟩
  exact endsAs_of_target _ _ _ _ (by simp)

/-- Settles O25: copy and transfer both have their operand as result; transfer alone has codes, and those are its sign. -/
theorem loadAndTransferRowsCopy : Obligations.LoadAndTransferRowsCopy := by
  intro i op row s b hrow hop hr hb
  obtain ⟨t, hexec, hwrites, hend, hpsw, hdraws⟩ := registerRow_exec hrow hr hb
  obtain rfl | rfl : op = .copy ∨ op = .transfer := by simpa using hop
  · exact ⟨t, hexec, hwrites, hend, hdraws, fun _ => hpsw, nofun⟩
  · exact ⟨t, hexec, hwrites, hend, hdraws, nofun, fun _ => hpsw⟩

/-! ### Consecutive words in memory -/

/-- The place after the next place, counted from the next one. -/
theorem add_one_add_ofNat {w : Nat} (a : BitVec w) (k : Nat) :
    a + 1 + BitVec.ofNat w k = a + BitVec.ofNat w (k + 1) := by
  rw [Nat.add_comm k 1, BitVec.ofNat_add, BitVec.add_assoc]
  rfl

/-- Fewer than 2^w places on from the next one, the place itself is not met again (R75). -/
theorem ne_add_one_add_ofNat {w : Nat} (a : BitVec w) {k : Nat} (hk : k + 1 < 2 ^ w) : a ≠ a + 1 + BitVec.ofNat w k := by
  rw [add_one_add_ofNat, ne_eq, BitVec.self_eq_add_right, BitVec.toNat_eq, BitVec.toNat_ofNat, Nat.mod_eq_of_lt hk]
  simp

/-- A write of consecutive words leaves every word outside them as it was. -/
theorem Memory.readWord_writeWords_outside (m : Memory) (a b : Word) (vs : List Word)
    (h : ∀ k < vs.length, b ≠ a + BitVec.ofNat 16 k) : (m.writeWords a vs).readWord b = m.readWord b := by
  induction vs generalizing m a with
  | nil => rfl
  | cons v vs ih =>
    have hne : b ≠ a := by simpa using h 0 (by simp)
    rw [Memory.writeWords, ih, Memory.readWord_writeWord_other _ _ _ _ hne]
    intro k hk
    rw [add_one_add_ofNat]
    exact h (k + 1) (by simpa using hk)

/-- Consecutive words, no more than there are addresses, read as they were last written (R75). -/
theorem Memory.readWord_writeWords (m : Memory) (a : Word) (vs : List Word) (hlen : vs.length ≤ 65536) (k : Nat)
    (hk : k < vs.length) : (m.writeWords a vs).readWord (a + BitVec.ofNat 16 k) = some vs[k] := by
  induction vs generalizing m a k with
  | nil => simp at hk
  | cons v vs ih =>
    rw [List.length_cons] at hlen hk
    cases k with
    | zero =>
      rw [BitVec.add_zero, Memory.writeWords, Memory.readWord_writeWords_outside, Memory.readWord_writeWord_same]
      · rfl
      · exact fun k hk => ne_add_one_add_ofNat a (by omega)
    | succ k =>
      rw [← add_one_add_ofNat]
      exact ih _ _ (by omega) k (by omega)

/-! ### Stores -/

/-- The state after a row that has written consecutive words and moved on: the words, and nothing else changed (R75). -/
theorem writesWords_advance (s : State) (a : Word) {vs : List Word} (hlen : vs.length ≤ 65536) (n : Nat) :
    WordsAt (State.advance { s with mem := s.mem.writeWords a vs } n) a vs ∧
      SameBytesOutside s (State.advance { s with mem := s.mem.writeWords a vs } n) a vs.length ∧
      SameControl s (State.advance { s with mem := s.mem.writeWords a vs } n) :=
  ⟨Memory.readWord_writeWords _ _ _ hlen, Memory.read_writeWords_outside _ _ _, by simp [SameControl]⟩

/-- The state after a row that has written one word and moved on. -/
theorem writesWord_advance (s : State) (a v : Word) (n : Nat) :
    WritesWord s (State.advance { s with mem := s.mem.writeWord a v } n) a v :=
  ⟨Memory.readWord_writeWord_same _ _ _, sameBytesOutside_writeWord s a v, rfl, by simp [SameControl]⟩

/-- A field of a joined word that lies above its last word is a field of what stands before that word. -/
theorem extractLsb'_append_word {n : Nat} (x : BitVec n) (y : Word) (k : Nat) :
    (x ++ y).extractLsb' (k + 16) 16 = x.extractLsb' k 16 := by
  rw [BitVec.extractLsb'_append_eq_of_le (by omega), Nat.add_sub_cancel]

/-- The words of a register multiple are its registers, the lowest-numbered first (R22, R75). -/
theorem wordsOf_getMulti (g : Regs) (k : Width) (r : Reg) : wordsOf k (g.getMulti k r) = g.file r k.words := by
  have h2 : r + 1 + 1 = r + 2 := add_one_add_ofNat r 1
  have h3 : r + 2 + 1 = r + 3 := by rw [BitVec.add_assoc]; rfl
  cases k with
  | single => rfl
  | double =>
    simp only [wordsOf, Width.words, Regs.file, Regs.getMulti, List.cons.injEq, and_true]
    exact ⟨append_high _ _, append_low _ _⟩
  | triple =>
    simp only [wordsOf, Width.words, Regs.file, Regs.getMulti, List.cons.injEq, and_true, h2]
    exact ⟨(extractLsb'_append_word _ _ 16).trans (append_high _ _),
      (extractLsb'_append_word _ _ 0).trans (append_low _ _), BitVec.extractLsb'_append_eq_right⟩
  | quad =>
    simp only [wordsOf, Width.words, Regs.file, Regs.getMulti, List.cons.injEq, and_true, h2, h3]
    exact ⟨(extractLsb'_append_word _ _ 32).trans ((extractLsb'_append_word _ _ 16).trans (append_high _ _)),
      (extractLsb'_append_word _ _ 16).trans ((extractLsb'_append_word _ _ 0).trans (append_low _ _)),
      (extractLsb'_append_word _ _ 0).trans BitVec.extractLsb'_append_eq_right, BitVec.extractLsb'_append_eq_right⟩

/-- Settles O39: the words written are the register's or the pair's. -/
theorem storesWriteRegisterWords : Obligations.StoresWriteRegisterWords := by
  refine ⟨fun i row s ea hrow hr hea hlaunched => ?_, fun r v s hr hlaunched => ?_⟩
  · have hlen : (wordsOf row.k (s.regs.getMulti row.k row.r)).length ≤ 65536 := by
      rw [length_wordsOf]
      cases row.k <;> decide
    obtain ⟨hwords, hbytes, hcontrol⟩ := writesWords_advance s ea hlen row.words
    rw [length_wordsOf] at hbytes
    rw [exec_storeRow hrow, ← wordsOf_getMulti]
    exact ⟨_, storeRegister_eq_next.mpr ⟨hr, ea, hea, by rwa [length_wordsOf], rfl⟩, hwords, hbytes, rfl, ⟨rfl, rfl⟩,
      hcontrol, rfl⟩
  · exact ⟨_, storeImmediate_eq_next.mpr ⟨admits_single.mpr hr, hlaunched, rfl⟩, writesWord_advance s _ _ _, ⟨rfl, rfl⟩, rfl⟩

/-! ### The file rows -/

/-- A write of consecutive registers leaves every register outside them as it was (D23). -/
theorem Regs.get_setFile_outside (g : Regs) (r q : Reg) (vs : List Word)
    (h : ∀ k < vs.length, q ≠ r + BitVec.ofNat 4 k) : (g.setFile r vs).get q = g.get q := by
  induction vs generalizing g r with
  | nil => rfl
  | cons v vs ih =>
    have hne : q ≠ r := by simpa using h 0 (by simp)
    rw [Regs.setFile, ih, Regs.get_set_other _ _ _ _ hne]
    intro k hk
    rw [add_one_add_ofNat]
    exact h (k + 1) (by simpa using hk)

/-- Consecutive registers, none of them number 0, read as they were last written (D23). -/
theorem Regs.file_setFile (g : Regs) (r : Reg) (vs : List Word) (hlen : vs.length ≤ 16)
    (h : ∀ k < vs.length, r + BitVec.ofNat 4 k ≠ 0#4) : (g.setFile r vs).file r vs.length = vs := by
  induction vs generalizing g r with
  | nil => rfl
  | cons v vs ih =>
    rw [List.length_cons] at hlen h
    have hr : r ≠ 0#4 := by simpa using h 0 (by omega)
    have hrest : ∀ k < vs.length, r + 1 + BitVec.ofNat 4 k ≠ 0#4 := fun k hk => by
      rw [add_one_add_ofNat]
      exact h (k + 1) (by omega)
    have hfirst : ((g.set r v).setFile (r + 1) vs).get r = v := by
      rw [Regs.get_setFile_outside _ _ _ _ fun k hk => ne_add_one_add_ofNat r (by omega), Regs.get_set_same _ _ _ hr]
    rw [Regs.setFile, List.length_cons, Regs.file, hfirst, ih _ _ (by omega) hrest]

/-- Counting from R up to 15 there is no wrap: each register number is R's and the count (R209). -/
theorem toNat_add_ofNat_of_lt {r : Reg} {k : Nat} (hk : k < 16 - r.toNat) :
    (r + BitVec.ofNat 4 k).toNat = r.toNat + k := by
  rw [BitVec.toNat_add, BitVec.toNat_ofNat]
  omega

/-- Settles O40. The registers R to 15 do not wrap around to number 0 or to a register below R. -/
theorem fileRowsMoveAllRegistersUp : Obligations.FileRowsMoveAllRegistersUp := by
  refine ⟨fun i row s ea vs hrow hr hea hlen hholds => ?_, fun i row s ea hrow hr hea hlaunched => ?_⟩
  · have hpos : 0 < row.r.toNat := Nat.pos_of_ne_zero fun h0 => hr (BitVec.eq_of_toNat_eq h0)
    have hload : loadWords ea (fileSize row.r) s = .next vs :=
      loadWords_eq_next.mpr ⟨hlen, fun k hk => loadWord_of_holdsWord (hholds k hk)⟩
    have hnumber : ∀ k < vs.length, (row.r + BitVec.ofNat 4 k).toNat = row.r.toNat + k := fun k hk =>
      toNat_add_ofNat_of_lt (hlen ▸ hk)
    rw [exec_loadFileRow hrow]
    refine ⟨_, loadFile_eq_next.mpr ⟨admits_single.mpr hr, ea, vs, hea, hload, rfl⟩, ?_, fun q hq => ?_, fun _ => rfl,
      ⟨rfl, rfl⟩, by simp [SameControl], rfl⟩
    · rw [← hlen]
      refine Regs.file_setFile _ _ _ (by omega) fun k hk hzero => ?_
      have := hnumber k hk
      rw [hzero, BitVec.toNat_zero] at this
      omega
    · refine Regs.get_setFile_outside _ _ _ _ fun k hk heq => ?_
      have := hnumber k hk
      rw [← heq] at this
      omega
  · have hlen : (s.regs.file row.r (fileSize row.r)).length ≤ 65536 := by
      rw [length_file, fileSize]
      omega
    obtain ⟨hwords, hbytes, hcontrol⟩ := writesWords_advance s ea hlen row.words
    rw [length_file] at hbytes
    rw [exec_storeFileRow hrow]
    exact ⟨_, storeFile_eq_next.mpr ⟨admits_single.mpr hr, ea, hea, by rwa [length_file], rfl⟩, hwords, hbytes, rfl,
      ⟨rfl, rfl⟩, hcontrol, rfl⟩

/-! ### Bytes -/

/-- A byte as a word is the byte in bits 8-15, with bits 0-7 cleared (R202). -/
theorem zeroExtend_byte (c : Byte) : c.zeroExtend 16 = 0#8 ++ c := by
  apply BitVec.eq_of_toNat_eq
  have := c.isLt
  rw [toNat_append_eq_add, BitVec.toNat_setWidth, BitVec.toNat_zero]
  omega

/-- The left byte of two (R61). -/
@[simp] theorem byteOf_upper_append (b c : Byte) : byteOf .upper (b ++ c) = b := BitVec.extractLsb'_append_eq_left

/-- The right byte of two (R61). -/
@[simp] theorem byteOf_lower_append (b c : Byte) : byteOf .lower (b ++ c) = c := BitVec.extractLsb'_append_eq_right

/-- A register written after a change of the codes only, and the end of the row: what `WritesRegister` says. -/
theorem writesRegister_advance {s u : State} {k : Width} {r : Reg} (v : BitVec k.bits) (n : Nat) (hregs : u.regs = s.regs)
    (hmem : u.mem = s.mem) (hcontrol : SameControl s u) (hr : k.admits r = true) :
    WritesRegister s ((u.setReg k r v).advance n) k r v := by
  refine ⟨?_, fun a => by simp [hmem], hcontrol⟩
  simpa [hregs] using onlyRegisters_setMulti s.regs k r v hr

/-- The same after four codes given by a class. -/
theorem writesRegister_setCodes {s : State} {c : Codes} {r : Reg} (v : Word) (hr : r ≠ 0#4) :
    WritesRegister s (((s.setCodes c).setReg .single r v).advance 1) .single r v :=
  writesRegister_advance v 1 rfl rfl (by simp [SameControl]) (admits_single.mpr hr)

/-- The BYTE mode: half the offset on from the word X names, the left byte where the offset is even (R61, R72). -/
theorem byteAddress_admitted {x : Reg} (s : State) (h1 : 1 ≤ x.toNat) (h7 : x.toNat ≤ 7) :
    byteAddress x s = .next (s.regs.get x + BitVec.ofNat 16 ((s.regs.get (x ||| 1#4)).toNat / 2),
      decide ((s.regs.get (x ||| 1#4)).toNat % 2 = 0)) := by
  have half (w : Word) : w >>> 1 = BitVec.ofNat 16 (w.toNat / 2) := by
    apply BitVec.eq_of_toNat_eq
    have := w.isLt
    rw [BitVec.toNat_ushiftRight, Nat.shiftRight_eq_div_pow, BitVec.toNat_ofNat]
    omega
  have even (w : Word) : (!w.getLsbD 0) = decide (w.toNat % 2 = 0) := by
    rw [← BitVec.testBit_toNat, Nat.testBit_zero]
    rcases Nat.mod_two_eq_zero_or_one w.toNat with h | h <;> simp [h]
  simp only [byteAddress, indexedAddress_eq, if_pos (And.intro h1 h7), Res.bind_next, half, even]

/-- The BYTE mode refuses where X names no index register (R69, R72). -/
theorem byteAddress_forbidden {x : Reg} (s : State) (h : x.toNat = 0 ∨ 8 ≤ x.toNat) :
    byteAddress x s = .refused .indexRegister := by
  rw [byteAddress, indexedAddress_eq, if_neg (by omega), Res.bind_refused]

/-- LBX once its operands are had: the byte, with its class as codes (R202, R28, R30). -/
theorem lbx_exec {r x : Reg} {s : State} {a v : Word} {left : Bool} (hr : r ≠ 0#4)
    (ha : byteAddress x s = .next (a, left)) (hv : HoldsWord s a v) :
    ∃ t c, exec (.lbx r x) s = .next t ∧ c = (if left then v.extractLsb' 8 8 else v.extractLsb' 0 8) ∧
      WritesRegister s t .single r (0#8 ++ c) ∧ t.psw = s.psw.withClass (classify c) ∧ t.draws = s.draws ∧
      t.pc = s.pc + 1 := by
  refine ⟨_, _, loadByte_eq_next.mpr ⟨admits_single.mpr hr, a, left, v, ha, loadWord_of_holdsWord hv, rfl⟩, rfl, ?_, rfl,
    rfl, rfl⟩
  rw [zeroExtend_byte]
  exact writesRegister_setCodes _ hr

/-- SBX once its operands are had: the word with one byte replaced by the right byte of R (R212). -/
theorem sbx_exec {r x : Reg} {s : State} {a v : Word} {left : Bool} (hr : r ≠ 0#4)
    (ha : byteAddress x s = .next (a, left)) (hv : HoldsWord s a v) :
    ∃ t, exec (.sbx r x) s = .next t ∧ SameStatus s t ∧ t.pc = s.pc + 1 ∧
      WritesWord s t a (if left then (s.regs.get r).extractLsb' 0 8 ++ v.extractLsb' 0 8
        else v.extractLsb' 8 8 ++ (s.regs.get r).extractLsb' 0 8) :=
  ⟨_, storeByte_eq_next.mpr ⟨admits_single.mpr hr, a, left, v, ha, loadWord_of_holdsWord hv, _, rfl, rfl⟩, ⟨rfl, rfl⟩, rfl,
    writesWord_advance s a _ 1⟩

/-- Settles O41: the byte address is had for X from 1 to 7 and refuses for every other X. -/
theorem byteLoadsAndStoresSelectOneByte : Obligations.ByteLoadsAndStoresSelectOneByte := by
  intro r x a v s hr
  refine ⟨fun h1 h7 ha hv => ?_, fun hx => ?_⟩
  · have haddress := byteAddress_admitted s h1 h7
    rw [← ha] at haddress
    have hload := lbx_exec hr haddress hv
    have hstore := sbx_exec hr haddress hv
    simp only [decide_eq_true_eq] at hload hstore
    exact ⟨hload, hstore⟩
  · have hrefused := byteAddress_forbidden s hx
    exact ⟨(byteRow_stops (.inl rfl) hr).1.1 _ hrefused, (byteRow_stops (.inr rfl) hr).1.1 _ hrefused⟩

/-- A move to the right byte clears the left one and sets the class of the byte moved (R224, R225; logs 8, 10). -/
theorem moveByte_lower {source : ByteSide} {r q : Reg} (s : State) (hr : r ≠ 0#4) (hq : q ≠ 0#4) :
    ∃ t, moveByte source .lower r q s = .next t ∧ WritesRegister s t .single r (0#8 ++ byteOf source (s.regs.get q)) ∧
      t.psw = s.psw.withClass (classify (byteOf source (s.regs.get q))) ∧ t.draws = s.draws ∧ t.pc = s.pc + 1 := by
  have hplace : placeByte .lower (byteOf source (s.regs.get q)) (s.regs.get r) = 0#8 ++ byteOf source (s.regs.get q) := rfl
  refine ⟨_, moveByte_eq_next.mpr ⟨admits_single.mpr hr, admits_single.mpr hq, _, rfl, rfl⟩, ?_⟩
  rw [if_pos rfl, hplace, byteOf_lower_append]
  exact ⟨writesRegister_setCodes _ hr, rfl, rfl, rfl⟩

/-- A move to the left byte clears the right one; the four codes are free, and OH is set or as it was (R226, R227, R28, R31;
logs 8, 10). -/
theorem moveByte_upper {source : ByteSide} {r q : Reg} (s : State) (hr : r ≠ 0#4) (hq : q ≠ 0#4) :
    ∃ t, moveByte source .upper r q s = .next t ∧ WritesRegister s t .single r (byteOf source (s.regs.get q) ++ 0#8) ∧
      SameMode s.psw t.psw ∧ (s.psw.oh = true → t.psw.oh = true) ∧ t.pc = s.pc + 1 := by
  have hplace : placeByte .upper (byteOf source (s.regs.get q)) (s.regs.get r) = byteOf source (s.regs.get q) ++ 0#8 := rfl
  refine ⟨_, moveByte_eq_next.mpr ⟨admits_single.mpr hr, admits_single.mpr hq, _, rfl, rfl⟩, ?_⟩
  rw [if_neg nofun, hplace]
  exact ⟨writesRegister_advance _ 1 rfl rfl (by simp [SameControl]) (admits_single.mpr hr), by simp [SameMode],
    by simp +contextual, rfl⟩

/-- The bytes exchanged, with the class of the new right one (R228). -/
theorem ibr_exec {r q : Reg} (s : State) (hr : r ≠ 0#4) (hq : q ≠ 0#4) :
    ∃ t, exec (.ibr r q) s = .next t ∧
      WritesRegister s t .single r (byteOf .lower (s.regs.get q) ++ byteOf .upper (s.regs.get q)) ∧
      t.psw = s.psw.withClass (classify (byteOf .upper (s.regs.get q))) ∧ t.draws = s.draws ∧ t.pc = s.pc + 1 := by
  refine ⟨_, interchangeBytes_eq_next.mpr ⟨admits_single.mpr hr, admits_single.mpr hq, rfl⟩, ?_⟩
  rw [byteOf_lower_append]
  exact ⟨writesRegister_setCodes _ hr, rfl, rfl, rfl⟩

/-- Settles O42: two moves to the right byte, two to the left one, and the exchange. -/
theorem byteMovesBetweenRegisters : Obligations.ByteMovesBetweenRegisters := fun _ _ s hr hq =>
  ⟨moveByte_lower (source := .lower) s hr hq, moveByte_lower (source := .upper) s hr hq,
    moveByte_upper (source := .upper) s hr hq, moveByte_upper (source := .lower) s hr hq, ibr_exec s hr hq⟩

/-! ### Interchanges -/

/-- Two registers interchanged, the same one or two different ones (R230). -/
theorem Regs.get_interchange (g : Regs) {r q : Reg} (hr : r ≠ 0#4) (hq : q ≠ 0#4) :
    ((g.set r (g.get q)).set q (g.get r)).get r = g.get q ∧ ((g.set r (g.get q)).set q (g.get r)).get q = g.get r ∧
      ∀ p, p ≠ r → p ≠ q → ((g.set r (g.get q)).set q (g.get r)).get p = g.get p := by
  refine ⟨?_, Regs.get_set_same _ _ _ hq, fun p hpr hpq => ?_⟩
  · by_cases hrq : r = q
    · rw [hrq, Regs.get_set_same _ _ _ hq]
    · rw [Regs.get_set_other _ _ _ _ hrq, Regs.get_set_same _ _ _ hr]
  · rw [Regs.get_set_other _ _ _ _ hpq, Regs.get_set_other _ _ _ _ hpr]

/-- Settles O43: both operands are read, and the address computed, before either is written. -/
theorem interchangesSwap : Obligations.InterchangesSwap := by
  refine ⟨fun r m ea v s hr hea hv => ?_, fun r q s hr hq => ?_⟩
  · have hexec := interchangeMemory_eq_next.mpr ⟨admits_single.mpr hr, ea, v, hea, loadWord_of_holdsWord hv, rfl⟩
    exact ⟨_, hexec, onlyRegisters_setMulti _ _ _ _ (admits_single.mpr hr), Memory.readWord_writeWord_same _ _ _,
      sameBytesOutside_writeWord s ea _, ⟨rfl, rfl⟩, by simp [SameControl], rfl⟩
  · obtain ⟨hnew, hold, hother⟩ := s.regs.get_interchange hr hq
    exact ⟨_, interchangeRegisters_eq_next.mpr ⟨admits_single.mpr hr, admits_single.mpr hq, rfl⟩, hnew, hold, hother,
      fun _ => rfl, ⟨rfl, rfl⟩, by simp [SameControl], rfl⟩

/-! ### The class X rows -/

/-- Settles O60: the refusal is the whole body, behind the privilege check where the row is privileged. -/
theorem refusedRowsRefuse : Obligations.RefusedRowsRefuse := by
  intro i r s hrow hpv
  rw [exec_refusedRow hrow]
  split
  case isTrue hi => exact privileged_of_pv (hpv hi) _
  case isFalse => rfl

end Sys2Proof.Machine
end

section
/-! PROOFS. The shift and generate-mask instructions: the shifted value as a number, and the mask as the negative of one bit
(spec/41_shift.md R235-R249). -/

namespace Sys2Proof.Machine

/-! ### The shifted value as a number -/

/-- A shift right of the signed value divides by 2^C, rounding down (R235-R237). -/
theorem toInt_arithmeticRight {w : Nat} (v free : BitVec w) (c : Nat) :
    (ShiftKind.arithmeticRight.apply v c free).toInt = v.toInt / 2 ^ c := by
  rw [ShiftKind.apply, BitVec.toInt_sshiftRight, Int.shiftRight_eq_div_pow, Int.natCast_pow, Nat.cast_ofNat]

/-- A shift right of the unsigned value divides by 2^C, rounding down (R241-R243). -/
theorem toNat_logicalRight {w : Nat} (v free : BitVec w) (c : Nat) :
    (ShiftKind.logicalRight.apply v c free).toNat = v.toNat / 2 ^ c := by
  rw [ShiftKind.apply, BitVec.toNat_ushiftRight, Nat.shiftRight_eq_div_pow]

/-- A shift left of the unsigned value multiplies by 2^C modulo 2^w (R244-R246). -/
theorem toNat_logicalLeft {w : Nat} (v free : BitVec w) (c : Nat) :
    (ShiftKind.logicalLeft.apply v c free).toNat = v.toNat * 2 ^ c % 2 ^ w := by
  rw [ShiftKind.apply, BitVec.toNat_shiftLeft, Nat.shiftLeft_eq]

/-- An integer that fits the signed width is the signed value of its own bit pattern (R10). -/
theorem toInt_ofInt_of_fitsSigned {w : Nat} (hw : 0 < w) {x : Int} (h : fitsSigned w x = true) :
    (BitVec.ofInt w x).toInt = x := by
  simp only [fitsSigned, Bool.and_eq_true, decide_eq_true_eq] at h
  obtain ⟨hlow, hhigh⟩ := h
  exact BitVec.toInt_ofInt_eq_self hw hlow hhigh

/-- Bits shifted left are the bits of the signed value times 2^C, whether or not that fits. -/
theorem shiftLeft_eq_ofInt {w : Nat} (v : BitVec w) (c : Nat) : v <<< c = BitVec.ofInt w (v.toInt * 2 ^ c) := by
  have hpow : BitVec.twoPow w c = BitVec.ofInt w (2 ^ c) := by
    rw [show (2 ^ c : ℤ) = (2 ^ c : ℕ) by norm_cast, BitVec.ofInt_natCast]
    apply BitVec.eq_of_toNat_eq
    rw [BitVec.toNat_twoPow, BitVec.toNat_ofNat]
  rw [BitVec.shiftLeft_eq_mul_twoPow, hpow, BitVec.ofInt_mul, BitVec.ofInt_toInt]

/-- A shift left of the signed value multiplies by 2^C where the product fits; elsewhere the result is free (R238-R240). -/
theorem toInt_arithmeticLeft {w : Nat} (hw : 0 < w) (v free : BitVec w) (c : Nat)
    (h : fitsSigned w (v.toInt * 2 ^ c) = true) :
    (ShiftKind.arithmeticLeft.apply v c free).toInt = v.toInt * 2 ^ c := by
  have hfits : shiftFits v c = true := h
  rw [ShiftKind.apply, if_pos hfits, shiftLeft_eq_ofInt, toInt_ofInt_of_fitsSigned hw h]

/-! ### The shift rows -/

/-- N and Z from a result, O and C drawn, then a register written and the end of the row: what `SignDrawn` says. -/
theorem signDrawn_setZNDrawn (s : State) {w : Nat} (x : BitVec w) (k : Width) (r : Reg) (v : BitVec k.bits) (n : Nat) :
    SignDrawn s (((s.setZNDrawn x).setReg k r v).advance n) x := by
  simp +contextual [SignDrawn, SameMode]

/-- What every shift row does: the shifted value in the register or multiple, N and Z from it, pc one word on (R235-R246). -/
theorem shiftRow_exec {i : Instr} {row : ShiftRow} {s : State} (h : shiftRow i = some row)
    (hr : row.k.admits row.r = true) :
    ∃ t v, v = row.kind.apply (s.regs.getMulti row.k row.r) row.c.toNat (Config.draw row.k.bits s.draws) ∧
      exec i s = .next t ∧ WritesRegister s t row.k row.r v ∧ SignDrawn s t v ∧ t.pc = s.pc + 1 := by
  rw [exec_shiftRow h]
  exact ⟨_, _, rfl, shift_eq_next.mpr ⟨hr, rfl⟩, writesRegister_advance _ 1 rfl rfl (by simp [SameControl]) hr,
    signDrawn_setZNDrawn s _ _ _ _ _, rfl⟩

/-- Settles O44: each of the four kinds is its own arithmetic, at any width and count. -/
theorem shiftsScaleByPowersOfTwo : Obligations.ShiftsScaleByPowersOfTwo := by
  rintro i ⟨kind, k, r, c⟩ s hrow hr
  obtain ⟨t, v, rfl, hexec, hwrites, hsign, hpc⟩ := shiftRow_exec (s := s) hrow hr
  refine ⟨t, _, hexec, hwrites, hsign, hpc, ?_⟩
  have hw : 0 < k.bits := by cases k <;> decide
  cases kind with
  | arithmeticRight => exact toInt_arithmeticRight _ _ _
  | arithmeticLeft => exact toInt_arithmeticLeft hw _ _ _
  | logicalRight => exact toNat_logicalRight _ _ _
  | logicalLeft => exact toNat_logicalLeft _ _ _

/-! ### The mask -/

/-- The negative of a power of two has ones from that power's bit upwards. -/
theorem getLsbD_neg_twoPow {w i k : Nat} (hk : k < w) : (-BitVec.twoPow w i).getLsbD k = decide (i ≤ k) := by
  have hbelow : (∃ j < k, (BitVec.twoPow w i).getLsbD j = true) ↔ i < k := by
    simp only [BitVec.getLsbD_twoPow, Bool.and_eq_true, decide_eq_true_eq]
    exact ⟨fun ⟨j, hj, _, hij⟩ => hij ▸ hj, fun hi => ⟨i, hi, hi.trans hk, rfl⟩⟩
  have hpower : (BitVec.twoPow w i).getLsbD k = decide (i = k) := by
    rw [BitVec.getLsbD_twoPow, Bool.eq_iff_iff]
    simp only [Bool.and_eq_true, decide_eq_true_eq]
    omega
  simp only [BitVec.getLsbD_neg, hbelow, hpower, hk, decide_true, Bool.true_and]
  rcases lt_trichotomy i k with hlt | rfl | hgt
  · simp [hlt, hlt.ne, hlt.le]
  · simp
  · simp [hgt.ne', hgt.not_gt, hgt.not_ge]

/-- The mask of a bit is the smallest signed number for bit 0 only (R71). -/
theorem bitmask_beq_intMin : ∀ n : Nibble, (bitmask n == BitVec.intMin 16) = (n == 0#4) := by decide

/-- Generate Mask: ones in bits 0 to BIT, zeros to the right (R248). -/
theorem getLsbD_generateMask (a : Word) (n : Nibble) {k : Nat} (hk : k < 16) :
    (Alu.generateMask.result a (bitmask n)).getLsbD k = decide (15 - n.toNat ≤ k) := by
  rw [Alu.result, subtract_eq (by decide), BitVec.zero_sub, bitmask_eq_twoPow, getLsbD_neg_twoPow hk]

/-- The codes of Generate Mask: bit 0 is always a one, so N is 1 and Z is 0; O is 1 for BIT 0 only (R248, R29, R31;
log 26). -/
theorem psw_generateMask (a : Word) (n : Nibble) (s : State) : (Alu.generateMask.flags a (bitmask n) s).psw =
    { s.psw with n := true, z := false, o := n == 0#4, oh := s.psw.oh || n == 0#4 } := by
  have hmsb : (subtract 0#16 (bitmask n)).result.msb = true := by
    rw [BitVec.msb_eq_getLsbD_last]
    exact (getLsbD_generateMask a n (by decide)).trans (by simp)
  have hzero : ((subtract 0#16 (bitmask n)).result == 0#16) = false := by
    rw [beq_eq_false_iff_ne]
    intro h
    simp [h] at hmsb
  have hover : (subtract 0#16 (bitmask n)).overflow = (n == 0#4) := by
    rw [subtract_eq (by decide), negate_overflow (by decide), bitmask_beq_intMin]
  simp only [Alu.flags, State.setZNO_psw, hmsb, hzero, hover]

/-- Settles O32: both rows are the generate-mask row of their register and bit; they differ in how they end. -/
theorem generateMaskFillsFromTheLeft : Obligations.GenerateMaskFillsFromTheLeft := by
  intro r n b s hr
  have hadmits := admits_single.mpr hr
  obtain ⟨t, hexec, hwrites, hend, hpsw, hdraws⟩ := registerRow_exec (i := .gmr r n) (s := s) rfl hadmits rfl
  obtain ⟨u, hexecB, hwritesB, hendB, hpswB, hdrawsB⟩ := registerRow_exec (i := .gmrb r n b) (s := s) rfl hadmits rfl
  exact ⟨_, t, u, fun k hk => getLsbD_generateMask _ n hk, hexec, hwrites, hend, hexecB, hwritesB, hendB,
    hpswB.trans hpsw.symm, hdraws, hdrawsB, hpsw.trans (psw_generateMask _ n s)⟩

end Sys2Proof.Machine
end

section
/-! PROOFS. The logical instructions: what the result and the codes of each operation are, bit by bit where one bit is named, in
a register and in a word of memory (spec/42_logical.md R250-R292). -/

namespace Sys2Proof.Machine

/-! ### Results and codes of the operations -/

/-- Clearing the bit of a mask leaves every other bit (R250, R71). -/
theorem getLsbD_zeroBit (a : Word) (n : Nibble) {k : Nat} (hk : k < 16) :
    (Alu.zeroBit.result a (bitmask n)).getLsbD k = (decide (k ≠ 15 - n.toNat) && a.getLsbD k) := by
  rw [Alu.result, BitVec.getLsbD_and, BitVec.getLsbD_not, getLsbD_bitmask_eq, decide_eq_true hk, Bool.true_and, decide_not,
    Bool.and_comm]

/-- Setting the bit of a mask leaves every other bit (R270, R71). -/
theorem getLsbD_setBit (a : Word) (n : Nibble) (k : Nat) :
    (Alu.setBit.result a (bitmask n)).getLsbD k = (decide (k = 15 - n.toNat) || a.getLsbD k) := by
  rw [Alu.result, BitVec.getLsbD_or, getLsbD_bitmask_eq, Bool.or_comm]

/-- Inverting the bit of a mask leaves every other bit (R284, R71). -/
theorem getLsbD_flipBit (a : Word) (n : Nibble) (k : Nat) :
    (Alu.flipBit.result a (bitmask n)).getLsbD k = (decide (k = 15 - n.toNat) != a.getLsbD k) := by
  rw [Alu.result, BitVec.getLsbD_xor, getLsbD_bitmask_eq, bne_comm]

/-- Extract, OR, exclusive OR and complement write N and Z of their result and no other code (R258, R275, R286, R292, R28). -/
theorem flags_eq_setZN {op : Alu} (hop : op ∈ [Alu.extract, .inclusiveOr, .exclusiveOr, .complement]) {w : Nat}
    (a b : BitVec w) (s : State) : op.flags a b s = s.setZN (op.result a b) := by
  simp only [List.mem_cons, List.not_mem_nil, or_false] at hop
  obtain rfl | rfl | rfl | rfl := hop <;> rfl

/-- OR Bit and Exclusive OR Bit write N and Z of their result and draw O and C, so OH is set or as it was (R270, R284, R28,
R31). -/
theorem signDrawn_of_flags {op : Alu} (hop : op = .setBit ∨ op = .flipBit) {w : Nat} {a b : BitVec w} {s t : State}
    (hpsw : t.psw = (op.flags a b s).psw) : SignDrawn s t (op.result a b) := by
  have hflags : op.flags a b s = s.setZNDrawn (op.result a b) := by obtain rfl | rfl := hop <;> rfl
  rw [hflags, State.setZNDrawn_psw] at hpsw
  simp +contextual [SignDrawn, SameMode, hpsw]

/-! ### Logic in a register -/

/-- Settles O29: the result is the operation's own, and the codes of all four operations are its sign. -/
theorem logicalRegisterRows : Obligations.LogicalRegisterRows := by
  intro i op row s b hrow hop hr hb
  obtain ⟨t, hexec, hwrites, hend, hpsw, hdraws⟩ := registerRow_exec hrow hr hb
  rw [flags_eq_setZN hop] at hpsw hdraws
  exact ⟨t, _, hexec, fun h => h ▸ rfl, fun h => h ▸ rfl, fun h => h ▸ rfl, fun h => h ▸ rfl, hwrites, hpsw, hdraws, hend⟩

/-- The first word of a row is its op code with the R and S nibbles put in (R101). -/
theorem opCode_or_nibbles (o : Byte) (r n : Nibble) : (o ++ 0#8) ||| (r ++ n).zeroExtend 16 = joinWord o r n := by
  have hnibbles : (r ++ n).zeroExtend 16 = 0#8 ++ (r ++ n) := zeroExtend_byte (r ++ n)
  rw [hnibbles, BitVec.or_append, BitVec.or_zero, BitVec.zero_or, joinWord, BitVec.append_assoc]
  rfl

/-- Settles O30: the two words are the encodings of the two rows, which clear the bit alike and differ in how they end. -/
theorem zeroBitInRegister : Obligations.ZeroBitInRegister := by
  intro r n b s hr
  have hword : 0x6200#16 ||| (r ++ n).zeroExtend 16 = joinWord 0x62#8 r n := opCode_or_nibbles 0x62#8 r n
  have hwordB : 0x7200#16 ||| (r ++ n).zeroExtend 16 = joinWord 0x72#8 r n := opCode_or_nibbles 0x72#8 r n
  have hadmits := admits_single.mpr hr
  obtain ⟨t, hexec, hwrites, hend, hpsw, hdraws⟩ := registerRow_exec (i := .zbr r n) (s := s) rfl hadmits rfl
  obtain ⟨u, hexecB, hwritesB, hendB, hpswB, hdrawsB⟩ := registerRow_exec (i := .zbrb r n b) (s := s) rfl hadmits rfl
  rw [hword, hwordB]
  exact ⟨decodeWords_encode (i := .zbr r n) [] rfl, decodeWords_encode (i := .zbrb r n b) [] rfl,
    _, t, u, fun k hk => getLsbD_zeroBit _ n hk, hexec, hwrites, ⟨hpsw, hdraws⟩, hend, hexecB, hwritesB,
    ⟨hpswB, hdrawsB⟩, hendB⟩

/-- What the OR Bit and Exclusive OR Bit rows with a register destination do once their operands are had. -/
theorem drawnRegisterRow_exec {i : Instr} {op : Alu} {row : RegisterRow} {s : State} {b : BitVec row.k.bits}
    (hop : op = .setBit ∨ op = .flipBit) (h : registerRow i = some (op, row)) (hr : row.k.admits row.r = true)
    (hb : row.src.read s = .next b) :
    ∃ t, exec i s = .next t ∧ WritesRegister s t row.k row.r (op.result (s.regs.getMulti row.k row.r) b) ∧
      SignDrawn s t (op.result (s.regs.getMulti row.k row.r) b) ∧
      EndsAs row.nx s t (op.result (s.regs.getMulti row.k row.r) b) := by
  obtain ⟨t, hexec, hwrites, hend, hpsw, -⟩ := registerRow_exec h hr hb
  exact ⟨t, hexec, hwrites, signDrawn_of_flags hop hpsw, hend⟩

/-- The two rows of one operation on the named bit, of which one goes on and the other ends as `nx`: with the same register and
mask they leave the same word in the register, whose bits are `bit`. -/
theorem drawnBitRows_exec {i j : Instr} {op : Alu} {r : Reg} {n : Nibble} {nx : Next} {s : State} {bit : Nat → Bool}
    (hop : op = .setBit ∨ op = .flipBit) (hr : r ≠ 0#4)
    (hi : registerRow i = some (op, ⟨.single, r, .const (bitmask n), .seq 1⟩))
    (hj : registerRow j = some (op, ⟨.single, r, .const (bitmask n), nx⟩))
    (hbit : ∀ k < 16, (op.result (s.regs.get r) (bitmask n)).getLsbD k = bit k) :
    ∃ (v : Word) (t u : State), (∀ k < 16, v.getLsbD k = bit k) ∧
      exec i s = .next t ∧ WritesRegister s t .single r v ∧ SignDrawn s t v ∧ t.pc = s.pc + 1 ∧
      exec j s = .next u ∧ WritesRegister s u .single r v ∧ SignDrawn s u v ∧ EndsAs nx s u v := by
  have hadmits := admits_single.mpr hr
  obtain ⟨t, hexec, hwrites, hsign, hend⟩ := drawnRegisterRow_exec (s := s) hop hi hadmits rfl
  obtain ⟨u, hexecB, hwritesB, hsignB, hendB⟩ := drawnRegisterRow_exec (s := s) hop hj hadmits rfl
  exact ⟨_, t, u, hbit, hexec, hwrites, hsign, hend, hexecB, hwritesB, hsignB, hendB⟩

/-- Settles O31: the B row of OR Bit always branches, that of Exclusive OR Bit where the new R is not zero. -/
theorem setAndFlipBitInRegister : Obligations.SetAndFlipBitInRegister := fun r n b _ hr =>
  ⟨drawnBitRows_exec (i := .obr r n) (j := .obrb r n b) (.inl rfl) hr rfl rfl fun k _ => getLsbD_setBit _ n k,
    drawnBitRows_exec (i := .xbr r n) (j := .xbrb r n b) (.inr rfl) hr rfl rfl fun k _ => getLsbD_flipBit _ n k⟩

/-! ### Logic in memory -/

/-- What every row with a memory destination does once its operands are had: the result in the word at the effective address,
the codes of the operation, the row's own end, and nothing else (R77, R78). -/
theorem memoryRow_exec {i : Instr} {op : Alu} {row : MemoryRow} {s : State} {b ea a : Word}
    (h : memoryRow i = some (op, row)) (hb : row.src.read s = .next b) (hea : effectiveAddress row.o s = .next ea)
    (ha : HoldsWord s ea a) :
    ∃ t, exec i s = .next t ∧ WritesWord s t ea (op.result a b) ∧ EndsAs row.nx s t (op.result a b) ∧
      t.psw = (op.flags a b s).psw ∧ t.draws = (op.flags a b s).draws := by
  rw [exec_memoryRow h]
  refine ⟨_, toMemory_eq_next.mpr ⟨b, ea, a, hb, hea, loadWord_of_holdsWord ha, rfl⟩, ⟨?_, ?_, ?_, ?_⟩, ?_, rfl, rfl⟩
  · exact Memory.readWord_writeWord_same _ _ _
  · exact sameBytesOutside_writeWord s ea _
  · simp
  · simp [SameControl]
  · exact endsAs_of_target _ _ _ _ (by simp)

/-- Settles O34: the result is the operation's own; Zero Bit writes no code, the other two N and Z. -/
theorem logicalMemoryRows : Obligations.LogicalMemoryRows := by
  intro i op row s b ea a hrow hop hb hea ha
  obtain ⟨t, hexec, hwrites, hend, hpsw, hdraws⟩ := memoryRow_exec hrow hb hea ha
  obtain rfl | rfl | rfl : op = .zeroBit ∨ op = .extract ∨ op = .inclusiveOr := by simpa using hop
  · exact ⟨t, hexec, _, fun _ => ⟨rfl, hpsw⟩, nofun, nofun, hwrites, hdraws, hend⟩
  · exact ⟨t, hexec, _, nofun, fun _ => ⟨rfl, hpsw⟩, nofun, hwrites, hdraws, hend⟩
  · exact ⟨t, hexec, _, nofun, nofun, fun _ => ⟨rfl, hpsw⟩, hwrites, hdraws, hend⟩

/-- Settles O35: the mask's bit set in the word, with the sign of that word and the drawn codes. -/
theorem setBitInMemory : Obligations.SetBitInMemory := by
  intro i row s b ea a hrow hb hea ha
  obtain ⟨t, hexec, hwrites, hend, hpsw, -⟩ := memoryRow_exec hrow hb hea ha
  exact ⟨t, hexec, hwrites, signDrawn_of_flags (.inl rfl) hpsw, hend⟩

end Sys2Proof.Machine
end

section
/-! PROOFS. The compare and test instructions: the codes of the difference as the order of the operands, and what the AND of the
operands tells (spec/43_compare_test.md R296-R317). -/

namespace Sys2Proof.Machine

/-! ### The rows that set codes only -/

/-- The codes of an operation and the end of the row leave registers, memory and control as they were (R78). -/
theorem sameData_inspect {w : Nat} (op : Alu) (a b : BitVec w) (s : State) (nx : Next) (c : Bool) :
    SameData s ((op.flags a b s).finish nx c) :=
  ⟨by simp, fun _ => by simp, by simp [SameControl]⟩

/-- What every row that sets codes only does once its operands are had: the codes of the operation, the row's own end, and
nothing else (R78). -/
theorem inspectRow_exec {i : Instr} {op : Alu} {row : InspectRow} {s : State} {a b : BitVec row.k.bits}
    (h : inspectRow i = some (op, row)) (ha : row.first.read s = .next a) (hb : row.second.read s = .next b) :
    ∃ t, exec i s = .next t ∧ SameData s t ∧ EndsAs row.nx s t (op.result a b) ∧
      t.psw = (op.flags a b s).psw ∧ t.draws = (op.flags a b s).draws := by
  rw [exec_inspectRow h]
  refine ⟨_, inspect_eq_next.mpr ⟨a, b, ha, hb, rfl⟩, sameData_inspect op a b s _ _, ?_, rfl, rfl⟩
  exact endsAs_of_target _ _ _ _ (by simp)

/-! ### Codes of the difference as the order of the operands -/

/-- N and O of a difference differ exactly where the first operand is less as a signed number: N is the sign of the exact
difference where that fits, and the opposite sign where it does not (R43). -/
theorem differenceCodes_n_ne_o {w : Nat} (a b : BitVec w) :
    (differenceCodes a b).n ≠ (differenceCodes a b).o ↔ a.toInt < b.toInt := by
  have hover : (differenceCodes a b).o = a.ssubOverflow b := not_fitsSigned w _
  have hsign : (differenceCodes a b).n = decide ((a - b).toInt < 0) := BitVec.msb_eq_toInt
  rw [hover, hsign]
  cases hcase : a.ssubOverflow b with
  | false =>
    rw [BitVec.toInt_sub_of_not_ssubOverflow (by simp [hcase])]
    simp only [ne_eq, decide_eq_false_iff_not, not_not]
    omega
  | true =>
    have hlow := BitVec.toInt_sub_toInt_lt_twoPow_iff (x := a) (y := b)
    have hhigh := BitVec.twoPow_le_toInt_sub_toInt_iff (x := a) (y := b)
    simp only [BitVec.ssubOverflow, Bool.or_eq_true, decide_eq_true_eq, ge_iff_le] at hcase
    simp only [ne_eq, decide_eq_true_eq, BitVec.toInt_sub]
    omega

/-- A difference is zero exactly where the operands are equal. -/
theorem differenceCodes_z {w : Nat} (a b : BitVec w) : (differenceCodes a b).z = true ↔ a = b := by
  rw [differenceCodes, beq_iff_eq]
  exact sub_eq_zero

/-- A difference has no borrow and is not zero exactly where the first operand is greater as an unsigned number (R43). -/
theorem differenceCodes_higher {w : Nat} (a b : BitVec w) :
    (differenceCodes a b).c = true ∧ (differenceCodes a b).z = false ↔ b.toNat < a.toNat := by
  rw [← Bool.not_eq_true, differenceCodes_z, differenceCodes, decide_eq_true_eq, BitVec.toNat_eq]
  omega

/-- A register multiple has at least one bit (R22). -/
theorem bits_pos (k : Width) : 0 < k.bits := by cases k <;> decide

/-- The codes of a subtraction are those of the difference (R29, R31). -/
theorem psw_subtract {k : Width} (a b : BitVec k.bits) (s : State) :
    (Alu.subtract.flags a b s).psw = s.psw.withCodes (differenceCodes a b) := by
  rw [Alu.flags, State.setSum_psw, subtract_eq (bits_pos k)]
  rfl

/-- The result of a subtraction is the difference (R29). -/
theorem result_subtract {k : Width} (a b : BitVec k.bits) : Alu.subtract.result a b = a - b := by
  rw [Alu.result, subtract_eq (bits_pos k)]

/-- Settles O36: the three conditions read the codes of the difference, which order the operands. -/
theorem comparesOrderTheirOperands : Obligations.ComparesOrderTheirOperands := by
  intro i row s a b hrow ha hb
  obtain ⟨t, hexec, hdata, hend, hpsw, hdraws⟩ := inspectRow_exec hrow ha hb
  rw [result_subtract] at hend
  rw [psw_subtract] at hpsw
  refine ⟨t, hexec, hdata, hpsw, hdraws, hend, ?_⟩
  rw [hpsw]
  exact ⟨differenceCodes_n_ne_o a b, differenceCodes_z a b, differenceCodes_higher a b⟩

/-! ### What the AND of the operands tells -/

/-- Settles O37: the result is the AND with the mask; Z is had from it, the other codes are drawn, and OH is not cleared. -/
theorem testBitTellsTheBit : Obligations.TestBitTellsTheBit := by
  intro i row s a b hrow ha hb
  obtain ⟨t, hexec, hdata, hend, hpsw, -⟩ := inspectRow_exec hrow ha hb
  refine ⟨t, hexec, hdata, ?_⟩
  rw [hpsw]
  exact ⟨Alu.flags_mode .testBit a b s, rfl, Alu.flags_oh .testBit a b s, hend⟩

/-- Settles O38: the result is the AND, and the codes are its sign. -/
theorem testRegisterBranchesOnCommonOnes : Obligations.TestRegisterBranchesOnCommonOnes := by
  intro i row s a b hrow ha hb
  obtain ⟨t, hexec, hdata, hend, hpsw, hdraws⟩ := inspectRow_exec hrow ha hb
  exact ⟨t, hexec, hdata, hpsw, hdraws, hend⟩

end Sys2Proof.Machine
end

section
/-! PROOFS. The branch instructions: hops, short-indexed branches, and branches that save a link (spec/44_branch.md
R318-R349, R351-R364; spec/48_control.md R444). -/

namespace Sys2Proof.Machine

/-! ### Conditions -/

/-- A condition of the card's table is the test that the rows make (R43). -/
theorem cond_eq_true_iff {p : Psw} {k : Condition} : p.cond k = true ↔ holdsCondition p k := by
  cases k with
  | n | z | o | c => rfl
  | less => simp [Psw.cond, holdsCondition]
  | lessEqual => simp [Psw.cond, holdsCondition]
  | higher => simp [Psw.cond, holdsCondition]

/-- A row branches exactly where its test, inverted where the inverting bit is set, is true (R43). -/
theorem branches_iff {p : Psw} {k : Condition} {inverted : Bool} :
    Branches p k inverted ↔ (p.cond k != inverted) = true := by
  cases inverted with
  | false => rw [Bool.bne_false, cond_eq_true_iff]; rfl
  | true => rw [Bool.bne_true, Bool.not_eq_true', ← Bool.not_eq_true, cond_eq_true_iff]; rfl

/-- What is chosen by the test of a row is the one value where the row branches, and the other where it does not. -/
theorem eq_of_branches {α : Type} {p : Psw} {k : Condition} {inverted : Bool} {v a b : α}
    (h : v = if p.cond k != inverted then a else b) :
    (Branches p k inverted → v = a) ∧ (¬ Branches p k inverted → v = b) :=
  ⟨fun hb => h.trans (if_pos (branches_iff.mp hb)), fun hb => h.trans (if_neg (mt branches_iff.mpr hb))⟩

/-! ### Hops and short-indexed branches -/

/-- A new `pc` is nothing but a new `pc`. -/
theorem onlyPc_setPc (s : State) (a : Word) : OnlyPc s { s with pc := a } :=
  ⟨⟨rfl, fun _ => rfl, by simp [SameControl]⟩, rfl, rfl⟩

/-- A hop with a displacement goes to it or to the next word, and changes nothing else (R318-R332, R70). -/
theorem hopIf_admitted (taken : Bool) {n : BitVec 7} (s : State) (hn : n ≠ 0x40#7) :
    ∃ t, hopIf taken n s = .next t ∧ OnlyPc s t ∧
      t.pc = if taken then s.pc + BitVec.ofInt 16 n.toInt else s.pc + 1 :=
  ⟨_, hopIf_eq_next.mpr ⟨hn, rfl⟩, onlyPc_setPc s _, rfl⟩

/-- The field 1000000b is no displacement: the hop refuses, taken or not (R111). -/
theorem hopIf_forbidden (taken : Bool) (s : State) : hopIf taken 0x40#7 s = .refused .hopField := if_pos rfl

/-- The short-indexed mode has the content of X for X from 1 to 7 (R69). -/
theorem indexedAddress_admitted {x : Reg} (s : State) (hx : 1 ≤ x.toNat ∧ x.toNat ≤ 7) :
    indexedAddress x s = .next (s.regs.get x) := by
  rw [indexedAddress_eq, if_pos hx]

/-- The short-indexed mode refuses every other X (R69). -/
theorem indexedAddress_forbidden {x : Reg} (s : State) (hx : x.toNat = 0 ∨ 8 ≤ x.toNat) :
    indexedAddress x s = .refused .indexRegister := by
  rw [indexedAddress_eq, if_neg (by omega)]

/-- Settles O45: the two ends of a hop are told apart by its condition. -/
theorem conditionalHops : Obligations.ConditionalHops := by
  intro i row s hrow
  rw [exec_hopRow hrow]
  refine ⟨fun hn => ?_, fun hn => hn ▸ hopIf_forbidden _ s⟩
  obtain ⟨t, hexec, honly, hpc⟩ := hopIf_admitted (s.psw.cond row.cond != row.inverted) s hn
  exact ⟨t, hexec, honly, eq_of_branches hpc⟩

/-- The Null Operation goes on to the next word (R444). -/
theorem exec_nop (s : State) : exec .nop s = .next { s with pc := s.pc + 1 } := rfl

/-- Settles O46. HOP is the hop that is always taken, and F701 is the word of the HOP by one. -/
theorem unconditionalHopAndNullOperation : Obligations.UnconditionalHopAndNullOperation := by
  refine ⟨fun n s hn => hopIf_admitted true s hn, fun s => ⟨hopIf_forbidden true s, ?_, ?_⟩, ?_⟩
  · exact ⟨_, exec_nop s, onlyPc_setPc s _, rfl⟩
  · rw [exec_nop]
    exact hopIf_eq_next.mpr ⟨show 1#7 ≠ 0x40#7 by decide, rfl⟩
  · exact decodeWords_encode (i := .hop 1#7) [] rfl

/-- Settles O47: the address is had, or refused, before the condition is looked at. -/
theorem shortIndexedBranches : Obligations.ShortIndexedBranches := by
  intro i row s hrow
  rw [exec_indexedBranchRow hrow]
  refine ⟨fun hx => ?_, fun hx => ?_⟩
  · exact ⟨_, branchIndexedIf_eq_next.mpr ⟨(indexAdmitted_iff row.x).mpr hx, rfl⟩, onlyPc_setPc s _, eq_of_branches rfl⟩
  · exact (stopsAs_bind _ _).1 _ (indexedAddress_forbidden s hx)

/-! ### Branches that save a link -/

/-- A link saves the return address in R, and nothing where R is 0 (R21 (b)). -/
theorem State.link_regs (s : State) (r : Reg) (n : Nat) :
    (r = 0#4 → (s.link r n).regs = s.regs) ∧
      (r ≠ 0#4 → OnlyRegisters s.regs (s.link r n).regs .single r (s.pc + BitVec.ofNat 16 n)) := by
  refine ⟨fun h => ?_, fun h => ?_⟩
  · rw [State.link, if_pos h]
  · rw [State.link, if_neg h]
    exact onlyRegisters_setMulti s.regs .single r _ (admits_single.mpr h)

/-- A link and a branch leave the status, memory and everything else as they were. -/
theorem State.link_frame (s : State) (r : Reg) (n : Nat) (a : Word) :
    SameStatus s { s.link r n with pc := a } ∧ SameBytes s { s.link r n with pc := a } ∧
      SameControl s { s.link r n with pc := a } :=
  ⟨by simp [SameStatus], fun _ => by simp, by simp [SameControl]⟩

/-- Settles O48: a row that branches is a link and a branch, one that does not is a new `pc`. -/
theorem conditionalBranchAndLink : Obligations.ConditionalBranchAndLink := by
  intro i row s hrow
  rw [exec_linkBranchRow hrow]
  by_cases hbranches : Branches s.psw row.cond row.inverted
  · obtain ⟨hstatus, hbytes, hcontrol⟩ := s.link_frame row.r 2 row.b
    refine ⟨_, branchLinkIf_eq_next.mpr (if_pos (branches_iff.mp hbranches)).symm, hstatus, hbytes, hcontrol, ?_⟩
    exact ⟨fun _ => ⟨rfl, s.link_regs row.r 2⟩, fun h => absurd hbranches h⟩
  · obtain ⟨⟨hregs, hbytes, hcontrol⟩, hstatus⟩ := onlyPc_setPc s (s.pc + 2)
    refine ⟨_, branchLinkIf_eq_next.mpr (if_neg (mt branches_iff.mpr hbranches)).symm, hstatus, hbytes, hcontrol, ?_⟩
    exact ⟨fun h => absurd h hbranches, fun _ => ⟨rfl, hregs⟩⟩

/-- BLI reads its register number before it writes that register with the next word's address, where it goes on (R348). -/
theorem exec_bli (r : Reg) (s : State) : exec (.bli r) s =
    Res.bind (readReg .single r s) fun _ => .next ((s.setReg .single r (s.pc + 1)).advance 1) := rfl

/-- Settles O49: in BLM and BLX the target is had before the link is written. -/
theorem unconditionalBranchAndLink : Obligations.UnconditionalBranchAndLink := by
  refine ⟨fun r m ea s hea => ?blm, fun r s => ⟨fun hr => ?bli_zero, fun hr => ?bli⟩,
    fun r x s => ⟨fun hx => ?blx, fun hx => ?blx_forbidden⟩⟩
  case blm =>
    obtain ⟨hzero, hlink⟩ := s.link_regs r 2
    exact ⟨_, Res.bind_eq_next.mpr ⟨ea, hea, rfl⟩, rfl, hzero, hlink, s.link_frame r 2 ea⟩
  case bli_zero =>
    rw [exec_bli, hr]
    exact bind_readReg_forbidden (admits_zero .single) _
  case bli =>
    have hadmits := admits_single.mpr hr
    rw [exec_bli, readReg_admitted s hadmits]
    exact ⟨_, rfl, writesRegister_advance (s.pc + 1) 1 rfl rfl (by simp [SameControl]) hadmits, ⟨rfl, rfl⟩, rfl⟩
  case blx =>
    obtain ⟨hzero, hlink⟩ := s.link_regs r 1
    exact ⟨_, Res.bind_eq_next.mpr ⟨_, indexedAddress_admitted s hx, rfl⟩, rfl, hzero, hlink, s.link_frame r 1 _⟩
  case blx_forbidden => exact (stopsAs_bind _ _).1 _ (indexedAddress_forbidden s hx)

end Sys2Proof.Machine
end

section
/-! PROOFS. The add and subtract instructions: what the operations add and subtract are to the operands and to the status word, in
a register or multiple and in a word of memory (spec/45_add_subtract.md R365-R396). -/

namespace Sys2Proof.Machine

/-! ### Result and codes of a sum -/

/-- The result of an addition is the sum (R29). -/
theorem result_add {w : Nat} (a b : BitVec w) : Alu.add.result a b = a + b := by
  rw [Alu.result, adder_eq]

/-- The codes of an addition are those of the sum, and OH is set where O is (R29, R31). -/
theorem psw_add {w : Nat} (a b : BitVec w) (s : State) :
    (Alu.add.flags a b s).psw = s.psw.withCodes (sumCodes a b) := by
  rw [Alu.flags, State.setSum_psw, adder_eq]
  rfl

/-! ### Sums and differences in a register -/

/-- Settles O26: the sum and its codes at the width of the destination; an addition draws nothing. -/
theorem registerAddsAreExact : Obligations.RegisterAddsAreExact := by
  intro i row s b hrow hr hb
  obtain ⟨t, hexec, hwrites, hend, hpsw, hdraws⟩ := registerRow_exec hrow hr hb
  rw [result_add] at hwrites hend
  rw [psw_add] at hpsw
  exact ⟨t, hexec, hwrites, hpsw, hdraws, hend⟩

/-- Settles O27: the difference and its codes, which are those a compare of the same operands sets. -/
theorem registerSubtractsAreExact : Obligations.RegisterSubtractsAreExact := by
  intro i row s b hrow hr hb
  obtain ⟨t, hexec, hwrites, hend, hpsw, hdraws⟩ := registerRow_exec hrow hr hb
  rw [result_subtract] at hwrites hend
  rw [psw_subtract] at hpsw
  exact ⟨t, hexec, hwrites, hpsw, hdraws, hend⟩

/-! ### Sums in memory -/

/-- Settles O33: the addend is the mask of a bit or register R, whichever the row's source has read. -/
theorem memoryAddsAreExact : Obligations.MemoryAddsAreExact := by
  intro i row s b ea a hrow hb hea ha
  obtain ⟨t, hexec, hwrites, hend, hpsw, hdraws⟩ := memoryRow_exec hrow hb hea ha
  rw [result_add] at hwrites hend
  rw [psw_add] at hpsw
  exact ⟨t, hexec, hwrites, hpsw, hdraws, hend⟩

end Sys2Proof.Machine
end

section
/-! PROOFS. The multiply, divide, two's complement and sign-extension instructions: the numbers that the result words stand for, and
the codes and the frame of each row (spec/46_multiply_divide.md R397-R414). -/

namespace Sys2Proof.Machine

/-! ### Two's complement -/

/-- A negation subtracts from 0: the negative, with C for 0 and O for the most negative number (R29, R409). -/
theorem subtract_zero {k : Width} (b : BitVec k.bits) :
    subtract 0#k.bits b = ⟨-b, b == 0#k.bits, b == BitVec.intMin k.bits⟩ :=
  (adderMatchesIntegers k b b).2.2

/-- The result of a negation is the negative, whatever the destination held (R409). -/
theorem result_negate {k : Width} (a b : BitVec k.bits) : Alu.negate.result a b = -b := by
  rw [Alu.result, subtract_zero]

/-- The codes of a negation, with OH set where O is (R29, R31, R409). -/
theorem psw_negate {k : Width} (a b : BitVec k.bits) (s : State) : (Alu.negate.flags a b s).psw =
    s.psw.withCodes ⟨(-b).msb, -b == 0#k.bits, b == BitVec.intMin k.bits, b == 0#k.bits⟩ := by
  rw [Alu.flags, State.setSum_psw, subtract_zero]
  rfl

/-- Settles O28: the negative and its codes at the width of the row; a negation draws nothing. -/
theorem twosComplementRowsNegate : Obligations.TwosComplementRowsNegate := by
  intro i row s b hrow hr hb
  obtain ⟨t, hexec, hwrites, hend, hpsw, hdraws⟩ := registerRow_exec hrow hr hb
  rw [result_negate] at hwrites hend
  rw [psw_negate] at hpsw
  exact ⟨t, hexec, hwrites, hpsw, hdraws, hend⟩

/-! ### Multiply -/

/-- The product of two signed words fits a pair: it is at most 2^30 either way (R397). -/
theorem toInt_ofInt_product (a b : Word) : (BitVec.ofInt 32 (a.toInt * b.toInt)).toInt = a.toInt * b.toInt := by
  have hlow := BitVec.le_toInt_mul_toInt (x := a) (y := b)
  have hhigh := BitVec.toInt_mul_toInt_le (x := a) (y := b)
  exact BitVec.toInt_ofInt_eq_self (by decide) (by omega) (by omega)

/-- The right word of a pair is its odd register (R22). -/
theorem extractLsb'_pair (g : Regs) (r : Reg) : (g.getMulti .double r).extractLsb' 0 16 = g.get (r + 1) :=
  BitVec.extractLsb'_append_eq_right

/-- Settles O50: the product replaces the pair, of which only the odd register was a factor. -/
theorem multiplyIsExact : Obligations.MultiplyIsExact := by
  intro i row s b hrow hr hb
  rw [exec_multiplyRow hrow]
  refine ⟨_, _, multiply_eq_next.mpr ⟨_, b, readPair_admitted hr, hb, rfl⟩,
    writesRegister_advance _ row.words rfl rfl (by simp [SameControl]) hr, ?_, signDrawn_setZNDrawn s _ _ _ _ _, rfl⟩
  rw [extractLsb'_pair, toInt_ofInt_product]

/-! ### Divide -/

/-- A remainder fits the width of its divisor: it is smaller in magnitude (R403). -/
theorem toInt_ofInt_tmod {w : Nat} (a : Int) {b : BitVec w} (hb : b ≠ 0#w) :
    (BitVec.ofInt w (a.tmod b.toInt)).toInt = a.tmod b.toInt := by
  have hw : 0 < w := by
    refine Nat.pos_of_ne_zero ?_
    rintro rfl
    exact hb BitVec.of_length_zero
  have hne : b.toInt ≠ 0 := fun h => hb (BitVec.toInt_inj.mp (by simpa using h))
  have habs : (a.tmod b.toInt).natAbs < b.toInt.natAbs := by
    rw [Int.natAbs_tmod]
    exact Nat.mod_lt _ (Int.natAbs_pos.mpr hne)
  have hlow := BitVec.le_toInt b
  have hhigh := BitVec.toInt_lt (x := b)
  exact BitVec.toInt_ofInt_eq_self hw (by omega) (by omega)

/-- Where the divisor is not 0 and the truncated quotient fits a word, both numbers stand in their words (R403, D24). -/
theorem quotient_of_fits {p : BitVec 32} {b : Word} (hb : b ≠ 0#16) (hlow : -32768 ≤ p.toInt.tdiv b.toInt)
    (hhigh : p.toInt.tdiv b.toInt ≤ 32767) :
    ∃ q m : Word, quotient p b = some (q, m) ∧ q.toInt = p.toInt.tdiv b.toInt ∧ m.toInt = p.toInt.tmod b.toInt := by
  refine ⟨BitVec.ofInt 16 (p.toInt.tdiv b.toInt), BitVec.ofInt 16 (p.toInt.tmod b.toInt), ?_,
    BitVec.toInt_ofInt_eq_self (by decide) (by omega) (by omega), toInt_ofInt_tmod _ hb⟩
  rw [quotient, if_neg hb, if_pos ⟨hlow, hhigh⟩, Int.tmod_def, Int.mul_comm]

/-- A zero divisor, or a truncated quotient outside a word, has no quotient (R403, D25). -/
theorem quotient_of_overflow {p : BitVec 32} {b : Word}
    (h : ¬ (b ≠ 0#16 ∧ -32768 ≤ p.toInt.tdiv b.toInt ∧ p.toInt.tdiv b.toInt ≤ 32767)) : quotient p b = none := by
  rw [quotient]
  by_cases hb : b = 0#16
  · rw [if_pos hb]
  · rw [if_neg hb, if_neg fun hfits => h ⟨hb, hfits⟩]

/-- A divide row that has a quotient (R403). -/
theorem exec_divideRow_quotient {i : Instr} {row : PairRow} {s : State} {b q m : Word} (h : divideRow i = some row)
    (hr : Width.admits .double row.r = true) (hb : row.src.read s = .next b)
    (hq : quotient (s.regs.getMulti .double row.r) b = some (q, m)) :
    exec i s = .next (((s.setQuotient q).setReg .double row.r (m ++ q)).advance row.words) := by
  rw [exec_divideRow h]
  exact divide_eq_next.mpr ⟨_, b, readPair_admitted hr, hb, .inl ⟨q, m, hq, rfl⟩⟩

/-- A divide row that has none (R403). -/
theorem exec_divideRow_overflow {i : Instr} {row : PairRow} {s : State} {b : Word} (h : divideRow i = some row)
    (hr : Width.admits .double row.r = true) (hb : row.src.read s = .next b)
    (hq : quotient (s.regs.getMulti .double row.r) b = none) :
    exec i s = .next (((s.setDivideOverflow).setReg .double row.r (Config.draw 32 s.draws)).advance row.words) := by
  rw [exec_divideRow h]
  exact divide_eq_next.mpr ⟨_, b, readPair_admitted hr, hb, .inr ⟨hq, rfl⟩⟩

/-- A pair that holds two words holds each in its own register (R22). -/
theorem get_of_getMulti_double {g : Regs} {r : Reg} {m q : Word} (h : g.getMulti .double r = m ++ q) :
    g.get r = m ∧ g.get (r + 1) = q := by
  have hleft : (g.getMulti .double r).extractLsb' 16 16 = g.get r := BitVec.extractLsb'_append_eq_left
  rw [← hleft, ← extractLsb'_pair, h]
  exact ⟨BitVec.extractLsb'_append_eq_left, BitVec.extractLsb'_append_eq_right⟩

/-- The codes of a quotient are those of its number: N for a negative one, Z for 0 (R403). -/
theorem quotient_codes (q : Word) : q.msb = decide (q.toInt < 0) ∧ (q == 0#16) = decide (q.toInt = 0) := by
  refine ⟨BitVec.msb_eq_toInt, ?_⟩
  rw [Bool.eq_iff_iff, beq_iff_eq, decide_eq_true_iff, ← BitVec.toInt_inj, BitVec.toInt_zero]

/-- Settles O51: the condition of the statement is the one on which the model has a quotient. -/
theorem divideTruncatesOrOverflows : Obligations.DivideTruncatesOrOverflows := by
  rintro i row s b q hrow hr hb rfl
  by_cases hfits : b ≠ 0#16 ∧ -32768 ≤ (s.regs.getMulti .double row.r).toInt.tdiv b.toInt ∧
      (s.regs.getMulti .double row.r).toInt.tdiv b.toInt ≤ 32767
  case pos =>
    obtain ⟨hne, hlow, hhigh⟩ := hfits
    obtain ⟨q, m, hquot, hq, hm⟩ := quotient_of_fits hne hlow hhigh
    have hpair : ((s.setQuotient q).setReg .double row.r (m ++ q)).regs.getMulti .double row.r = m ++ q :=
      Regs.getMulti_setMulti s.regs .double row.r (m ++ q) hr
    obtain ⟨heven, hodd⟩ := get_of_getMulti_double hpair
    obtain ⟨hn, hz⟩ := quotient_codes q
    refine ⟨_, _, exec_divideRow_quotient hrow hr hb hquot,
      writesRegister_advance _ row.words rfl rfl (by simp [SameControl]) hr, by simp [SameMode], rfl, ?_⟩
    rw [if_pos ⟨hne, hlow, hhigh⟩, ← hq, ← hm]
    exact ⟨congrArg BitVec.toInt hodd, congrArg BitVec.toInt heven, hn, hz, rfl, rfl⟩
  case neg =>
    refine ⟨_, _, exec_divideRow_overflow hrow hr hb (quotient_of_overflow hfits),
      writesRegister_advance _ row.words rfl rfl (by simp [SameControl]) hr, by simp [SameMode], rfl, ?_⟩
    rw [if_neg hfits]
    exact ⟨rfl, rfl⟩

/-! ### Extend Sign -/

/-- What a sign extension does: the source's own number at the wider width, N and Z from it, pc one word on (R413, R414). -/
theorem extendSign_exec {narrow wide : Width} {r q : Reg} (s : State) (hbits : narrow.bits ≤ wide.bits)
    (hr : wide.admits r = true) (hq : narrow.admits q = true) :
    ∃ (t : State) (v : BitVec wide.bits), extendSign narrow wide r q s = .next t ∧ WritesRegister s t wide r v ∧
      v.toInt = (s.regs.getMulti narrow q).toInt ∧ SignDrawn s t v ∧ t.pc = s.pc + 1 :=
  ⟨_, _, extendSign_eq_next.mpr ⟨hr, hq, rfl⟩, writesRegister_advance _ 1 rfl rfl (by simp [SameControl]) hr,
    BitVec.toInt_signExtend_of_le hbits, signDrawn_setZNDrawn s _ _ _ _ _, rfl⟩

/-- Settles O52: a word to a pair, and a pair to a quadruple. -/
theorem extendSignKeepsTheNumber : Obligations.ExtendSignKeepsTheNumber := fun _ _ s =>
  ⟨fun hr hq => extendSign_exec s (by decide) hr (admits_single.mpr hq), fun hr hq => extendSign_exec s (by decide) hr hq⟩

end Sys2Proof.Machine
end

section
/-! PROOFS. The floating-point instructions: what the configuration's function gives is written, and nothing else
(spec/47_floating.md R415-R441, R491). -/

namespace Sys2Proof.Machine

/-- The end of a floating-point row: the given value in the destination, the four given codes and no others, and pc behind the
row. -/
theorem floatResult_writes {k : Width} {r : Reg} (x : FpResult k.bits) (words : Nat) (s : State) (hr : k.admits r = true) :
    WritesRegister s (floatResult k r x words s) k r x.value ∧
      (floatResult k r x words s).psw = s.psw.withClass x.codes ∧ (floatResult k r x words s).draws = s.draws ∧
      (floatResult k r x words s).pc = s.pc + BitVec.ofNat 16 words :=
  ⟨writesRegister_advance _ words rfl rfl (by simp [SameControl]) hr, rfl, rfl, rfl⟩

/-- An indirect memory form refuses before it reads anything (R418 and its kin). -/
theorem floatRow_indirect {i : Instr} {row : FloatRow} {s : State} (h : floatRow i = some row) (hind : row.indirect = true) :
    exec i s = .refused .floatingIndirect := by
  rw [exec_floatRow h, if_pos hind]

/-- A direct row whose destination is admitted and whose operand is read goes on to the row's end (R415-R438). -/
theorem floatRow_direct {i : Instr} {row : FloatRow} {s : State} {b : BitVec row.k.bits} (h : floatRow i = some row)
    (hdirect : row.indirect = false) (hr : row.k.admits row.r = true) (hb : row.src.read s = .next b) :
    exec i s = .next (floatResult row.k row.r (row.op.apply row.k.bits (s.regs.getMulti row.k row.r) b) row.words s) := by
  rw [exec_floatRow_direct h hdirect, readReg_eq_next.mpr ⟨hr, rfl⟩, hb]
  rfl

/-- What a conversion does: the function's answer for the source, in the pair and the codes, pc one word on (R439-R441). -/
theorem convert_exec {k : Width} {f : BitVec k.bits → FpResult 32} {r q : Reg} (s : State)
    (hr : Width.admits .double r = true) (hq : k.admits q = true) :
    ∃ t x, convert k f r q s = .next t ∧ x = f (s.regs.getMulti k q) ∧ WritesRegister s t .double r x.value ∧
      t.psw = s.psw.withClass x.codes ∧ t.draws = s.draws ∧ t.pc = s.pc + 1 :=
  ⟨_, _, convert_eq_next.mpr ⟨hr, hq, rfl⟩, rfl, floatResult_writes (k := .double) _ 1 s hr⟩

/-- Settles O53: each row's operation names its function of the configuration; a pair is its two registers, left and right. -/
theorem floatingRowsApplyTheParameter : Obligations.FloatingRowsApplyTheParameter := by
  refine ⟨fun i row s hrow => ⟨floatRow_indirect hrow, fun b hdirect hr hb => ?_⟩,
    fun r q s hr => ⟨fun hq => ⟨convert_exec s hr hq, convert_exec s hr hq⟩, fun hq => convert_exec s hr hq⟩⟩
  refine ⟨_, row.op.apply row.k.bits (s.regs.getMulti row.k row.r) b, floatRow_direct hrow hdirect hr hb, ?_,
    floatResult_writes _ row.words s hr⟩
  cases row.op with
  | add => rfl
  | subtract => rfl
  | multiply => rfl
  | divide => rfl

end Sys2Proof.Machine
end

section
/-! PROOFS. Events: the privilege check, the environment's turn at an instruction boundary, which interrupt is taken there, what
its entry may answer, and the return from it (spec/60_exceptions.md R602-R609; spec/49_interrupt_io.md R483, R484). -/

namespace Sys2Proof.Machine

/-! ### The privilege check -/

/-- In the unprivileged state the privilege check stops the body (R602). -/
theorem privileged_of_not_pv {s : State} (h : s.psw.pv = false) (x : Res State) :
    privileged s x = .fault .privilegeViolation := by
  rw [privileged, h]
  rfl

/-- Settles O11: a privileged row has no effect outside the privilege check. -/
theorem privilegedRowsFaultUnprivileged : Obligations.PrivilegedRowsFaultUnprivileged := by
  intro i s hi hpv
  obtain ⟨x, hexec⟩ := exec_eq_privileged hi s
  rw [hexec, privileged_of_not_pv hpv]

/-! ### The environment's turn -/

/-- A latch of two words joined by OR is the OR of the latches (R35). -/
theorem latch_or (v w : Word) (l : BitVec 4) : latch (v ||| w) l = (latch v l || latch w l) := by
  simp only [latch_eq_getLsbD, BitVec.getLsbD_or]

/-- A latch of two words joined by AND is the AND of the latches (R35). -/
theorem latch_and (v w : Word) (l : BitVec 4) : latch (v &&& w) l = (latch v l && latch w l) := by
  simp only [latch_eq_getLsbD, BitVec.getLsbD_and]

/-- In the word 0 no latch is set (R35). -/
theorem latch_zero (l : BitVec 4) : latch 0#16 l = false := by rw [latch_eq_getLsbD, BitVec.getLsbD_zero]

/-- The environment's next word, 0 where there is none, is ORed into the request latches (R605). -/
theorem takeRequests_ir (s : State) : (takeRequests s).ir = s.ir ||| s.envRequests.headD 0#16 := by
  rw [takeRequests]
  cases s.envRequests with
  | nil => exact BitVec.or_zero.symm
  | cons e es => rfl

/-- The environment's turn uses up one word of requests (R605; log 15). -/
theorem takeRequests_envRequests (s : State) : (takeRequests s).envRequests = s.envRequests.tail := by
  rw [takeRequests]
  cases h : s.envRequests with
  | nil => exact h
  | cons e es => rfl

/-- Settles O15: only the request latches and the environment's own list change. -/
theorem environmentOnlySetsRequests : Obligations.EnvironmentOnlySetsRequests := by
  intro s
  refine ⟨fun l => ?_, takeRequests_ie s, takeRequests_ia s, takeRequests_regs s, takeRequests_pc s, takeRequests_psw s,
    takeRequests_run s, takeRequests_mem s, takeRequests_launch s, takeRequests_pending s, takeRequests_outputs s,
    takeRequests_draws s, takeRequests_envRequests s⟩
  rw [takeRequests_ir, latch_or]

/-! ### The instruction at pc -/

/-- A row whose words are all used up has as many words after its first as it asks for (R100, R124). -/
theorem length_eq_extra_of_read {shape : Shape} {ws : List Word} {i : Instr} (h : shape.read ws = .ok (i, [])) :
    ws.length = shape.extra := by
  unfold Shape.read at h
  split at h <;> cases h <;> rfl

/-- Where the words at pc decode to an instruction and no more, the fetch has it executed (R78, R124). -/
theorem fetchAndRun_decoded {run : Instr → State → Res State} {s : State} {ws : List Word} {i : Instr}
    (hheld : ∀ (k : Nat) (h : k < ws.length), HoldsWord s (s.pc + BitVec.ofNat 16 k) ws[k])
    (hdecode : decodeWords ws = .ok (i, [])) : fetchAndRun run s = run i s := by
  cases ws with
  | nil => cases hdecode
  | cons w more =>
    have hfirst : loadWord s.pc s = .next w := by
      have hheld0 := hheld 0 (Nat.zero_lt_succ _)
      rw [BitVec.add_zero] at hheld0
      exact loadWord_of_holdsWord hheld0
    rw [decodeWords] at hdecode
    rw [fetchAndRun, hfirst, Res.bind_next]
    cases hhead : decodeHead w with
    | none => rw [hhead] at hdecode; cases hdecode
    | some shape =>
      rw [hhead] at hdecode
      have hread : shape.read more = .ok (i, []) := hdecode
      have hmore : loadWords (s.pc + 1) shape.extra s = .next more := by
        refine loadWords_eq_next.mpr ⟨length_eq_extra_of_read hread, fun k hk => ?_⟩
        rw [add_one_add_ofNat]
        exact loadWord_of_holdsWord (hheld (k + 1) (Nat.succ_lt_succ hk))
      simp only [hmore, Res.bind_next, hread]

/-- Settles O5: the environment's turn leaves pc and every word held where they are. -/
theorem stepRunsDecodedInstruction : Obligations.StepRunsDecodedInstruction := by
  intro s ws i hrun hpending hquiet hheld hdecode _
  rw [step_eq_fetchAndRun hrun hpending hquiet]
  refine fetchAndRun_decoded (fun k hk => ?_) hdecode
  rw [takeRequests_pc]
  exact holdsWord_takeRequests (hheld k hk)

/-! ### Which interrupt is taken -/

/-- A level is recognisable where it is requested and enabled and no level up to it is active (R606). -/
theorem recognisable_iff {s : State} {l : BitVec 4} : recognisable s l = true ↔
    latch s.ir l = true ∧ latch s.ie l = true ∧ ∀ k, k ≤ l → latch s.ia k = false := by
  have hoff (k : BitVec 4) : (!(decide (k ≤ l) && latch s.ia k)) = true ↔ (k ≤ l → latch s.ia k = false) := by
    by_cases hk : k ≤ l <;> simp [hk]
  simp only [recognisable, Bool.and_eq_true, List.all_eq_true, hoff, mem_levels, forall_const, and_assoc]

/-- A running machine that answers no request takes the interrupt it recognises after the environment's turn (R606). -/
theorem step_eq_raiseEvent {s : State} {l : BitVec 4} (hrun : s.run = .running) (hpending : s.pending = none)
    (hlevel : recognise (takeRequests s) = some l) : step s = raiseEvent (.interrupt l) (takeRequests s) := by
  simp only [step, hrun, hpending, hlevel]

/-- No interrupt is recognised where an active level holds off each level that is requested and enabled (R606). -/
theorem recognise_eq_none_of_held_off {s : State}
    (h : ∀ l, latch s.ir l = true → latch s.ie l = true → ∃ k, k ≤ l ∧ latch s.ia k = true) : recognise s = none := by
  refine recognise_eq_none.mpr fun l => Bool.eq_false_iff.mpr fun hl => ?_
  obtain ⟨hir, hie, hinactive⟩ := recognisable_iff.mp hl
  obtain ⟨k, hk, hactive⟩ := h l hir hie
  exact Bool.false_ne_true ((hinactive k hk).symm.trans hactive)

/-- Settles O13. The third clause is the second with no level both requested and enabled. -/
theorem interruptTakesLowestRecognisableLevel : Obligations.InterruptTakesLowestRecognisableLevel := by
  refine ⟨fun s l hrun hpending hir hie hia hlower => ?taken,
    fun s hrun hpending hheld => step_eq_fetchAndRun hrun hpending (recognise_eq_none_of_held_off hheld),
    fun s hrun hpending hnone => ?none⟩
  case taken =>
    refine step_eq_raiseEvent hrun hpending (recognise_eq_some.mpr ⟨recognisable_iff.mpr ⟨hir, hie, hia⟩, fun k hk => ?_⟩)
    refine Bool.eq_false_iff.mpr fun hrec => ?_
    obtain ⟨hkir, hkie, -⟩ := recognisable_iff.mp hrec
    rcases hlower k hk with h | h
    · exact Bool.false_ne_true (h.symm.trans hkir)
    · exact Bool.false_ne_true (h.symm.trans hkie)
  case none =>
    refine step_eq_fetchAndRun hrun hpending (recognise_eq_none_of_held_off fun l hir hie => ?_)
    have hboth : latch ((takeRequests s).ie &&& (takeRequests s).ir) l = true := by rw [latch_and, hie, hir]; rfl
    rw [hnone, latch_zero] at hboth
    cases hboth

/-! ### What the entry of an interrupt may answer -/

/-- Two status words name the same maps and the same register block where IM, OM and GRB agree (R33). -/
theorem Psw.sameSpace_iff {p q : Psw} : p.sameSpace q = true ↔ q.im = p.im ∧ q.om = p.om ∧ q.grb = p.grb := by
  simp only [Psw.sameSpace, Bool.and_eq_true, beq_iff_eq]
  constructor
  · rintro ⟨⟨him, hgrb⟩, hom⟩
    exact ⟨him.symm, hom.symm, hgrb.symm⟩
  · rintro ⟨him, hom, hgrb⟩
    exact ⟨⟨him.symm, hgrb.symm⟩, hom.symm⟩

/-- The conditions (a) to (c) of R607, latch by latch. -/
theorem entryKept_iff {l : BitVec 4} {s t : State} : entryKept l s t = true ↔ latch t.ia l = true ∧
    (∀ k, k ≠ l → latch t.ie k = latch s.ie k ∧ latch t.ia k = latch s.ia k ∧ latch t.ir k = latch s.ir k) ∧
    Config.savedPsd t = (s.pc, s.psw.toWord) := by
  simp only [entryKept, Bool.and_eq_true, beq_iff_eq, resetLatch_eq_iff, forall₂_and]
  constructor
  · rintro ⟨⟨⟨⟨hactive, hia⟩, hie⟩, hir⟩, hsaved⟩
    exact ⟨hactive, ⟨hie, hia, hir⟩, hsaved⟩
  · rintro ⟨hactive, ⟨hie, hia, hir⟩, hsaved⟩
    exact ⟨⟨⟨⟨hactive, hia⟩, hie⟩, hir⟩, hsaved⟩

/-- An answer that is no state of the model, or changes a map or the block, refuses; any other is adopted (R60, R33). -/
theorem acceptAnswer_eq (s a : State) : acceptAnswer s a =
    if ¬ a.mem.wf then .refused .environmentAnswer
    else if ¬ (a.psw.im = s.psw.im ∧ a.psw.om = s.psw.om ∧ a.psw.grb = s.psw.grb) then .refused .mapOrBlockChange
    else .next (s.adopt a) := by
  simp only [acceptAnswer, Psw.sameSpace_iff, ite_not]

/-- What is done next with an answer is done where it is accepted. -/
theorem bind_ite_not_refused {α β : Type} {c : Prop} [Decidable c] (e : Refusal) (x : Res α) (f : α → Res β) :
    Res.bind (if ¬ c then .refused e else x) f = if ¬ c then .refused e else Res.bind x f := by
  split <;> rfl

/-- Settles O14. The second clause says which answers are adopted; such an answer meets what the first asks of it. -/
theorem interruptEntryKeepsItsConditions : Obligations.InterruptEntryKeepsItsConditions := by
  refine (and_iff_right_of_imp fun answer l s => ?kept).mpr fun l s => ?answer
  case answer =>
    show enterInterrupt l s = _
    rw [enterInterrupt]
    cases Config.interruptEntry l s with
    | none => rfl
    | some a =>
      show Res.bind (acceptAnswer s a) _ = _
      simp only [acceptAnswer_eq, bind_ite_not_refused, Res.bind_next, entryKept_iff]
      rfl
  case kept =>
    rw [answer l s]
    split
    · exact .inl ⟨_, rfl⟩
    · dsimp only
      split_ifs with hwf hspace hkept
      · obtain ⟨hactive, hothers, hsaved⟩ := hkept
        obtain ⟨him, hom, hgrb⟩ := hspace
        exact .inr ⟨_, rfl, hactive, hothers, hsaved, him, hom, hgrb, hwf⟩
      all_goals exact .inl ⟨_, rfl⟩

/-! ### Return from interrupt -/

/-- The mask EFE0 selects IM, GRB and OM, each at its place in PS (R26). -/
theorem Psw.toNat_toWord_and_mask (p : Psw) :
    (p.toWord &&& 0xEFE0#16).toNat = p.im.toNat * 2 ^ 13 + p.grb.toNat * 2 ^ 8 + p.om.toNat * 2 ^ 5 := by
  have hmask : 0xEFE0#16 = BitVec.allOnes 3 ++ 0#1 ++ BitVec.allOnes 4 ++ BitVec.allOnes 3 ++ 0#1 ++ 0#1 ++ 0#1 ++ 0#1
      ++ 0#1 := rfl
  rw [hmask]
  change ((_ : BitVec (3 + 1 + 4 + 3 + 1 + 1 + 1 + 1 + 1)) &&& _).toNat = _
  rw [Psw.toWord]
  simp only [BitVec.and_append, BitVec.and_allOnes, BitVec.and_zero, toNat_append_eq_add, BitVec.toNat_zero]
  omega

/-- Two status words name the same maps and block exactly where they agree under the mask EFE0 (R26, R33). -/
theorem Psw.sameSpace_iff_mask {p q : Psw} :
    p.sameSpace q = true ↔ q.toWord &&& 0xEFE0#16 = p.toWord &&& 0xEFE0#16 := by
  rw [Psw.sameSpace_iff, ← BitVec.toNat_inj (x := q.toWord &&& 0xEFE0#16), Psw.toNat_toWord_and_mask,
    Psw.toNat_toWord_and_mask]
  constructor
  · rintro ⟨him, hom, hgrb⟩
    rw [him, hom, hgrb]
  · intro h
    have hp := p.im.isLt
    have hq := q.im.isLt
    have hpgrb := p.grb.isLt
    have hqgrb := q.grb.isLt
    have hpom := p.om.isLt
    have hqom := q.om.isLt
    exact ⟨BitVec.eq_of_toNat_eq (by omega), BitVec.eq_of_toNat_eq (by omega), BitVec.eq_of_toNat_eq (by omega)⟩

/-- A word loaded into PS is PS as a word (R26). -/
theorem Psw.toWord_ofWord (w : Word) : (Psw.ofWord w).toWord = w := statusWordLayout.2 w

/-- A word for PS names the maps and block in force exactly where it agrees with PS under the mask EFE0 (R26, R33). -/
theorem Psw.sameSpace_ofWord_iff {p : Psw} {w : Word} :
    p.sameSpace (Psw.ofWord w) = true ↔ w &&& 0xEFE0#16 = p.toWord &&& 0xEFE0#16 := by
  rw [Psw.sameSpace_iff_mask, Psw.toWord_ofWord]

/-- With no level active there is none to be served (R608). -/
theorem lowestActive_eq_none {s : State} (h : s.ia = 0#16) : lowestActive s = none := by
  simp [lowestActive, h, latch_zero]

/-- A return with no level to leave refuses (R483, D31). -/
theorem returnFromInterrupt_noActiveLevel (clearRequest : Bool) {r : Reg} {s : State} (hpv : s.psw.pv = true)
    (hr : Width.admits .double r = true) (hlevel : lowestActive s = none) :
    returnFromInterrupt clearRequest r s = .refused .noActiveLevel := by
  rw [returnFromInterrupt, privileged_of_pv hpv, tentative_admitted, readReg_admitted s hr, Res.bind_next]
  simp only [hlevel]

/-- A return to a PS that names another map or block refuses (R33, D58). -/
theorem returnFromInterrupt_mapOrBlockChange (clearRequest : Bool) {r : Reg} {s : State} {l : BitVec 4}
    (hpv : s.psw.pv = true) (hr : Width.admits .double r = true) (hlevel : lowestActive s = some l)
    (hspace : ¬ s.psw.sameSpace (Psw.ofWord (s.regs.get (r + 1))) = true) :
    returnFromInterrupt clearRequest r s = .refused .mapOrBlockChange := by
  rw [returnFromInterrupt, privileged_of_pv hpv, tentative_admitted, readReg_admitted s hr, Res.bind_next]
  simp only [hlevel, extractLsb'_pair, if_neg hspace]

/-- Settles O16: CAR and CIR are one return, which for CIR resets the request latch too. -/
theorem returnFromInterruptLeavesLevel : Obligations.ReturnFromInterruptLeavesLevel := by
  intro r s hpv hr
  refine ⟨fun l hactive hlower => ?active, fun hnone => ?inactive⟩
  case active =>
    have hlevel := lowestActive_eq_some.mpr ⟨hactive, hlower⟩
    refine ⟨fun hspace => ?same, fun hspace => ?changed⟩
    case same =>
      have hsame := Psw.sameSpace_ofWord_iff.mpr hspace
      have hps := Psw.toWord_ofWord (s.regs.get (r + 1))
      have hia := latch_resetLatch s.ia l
      have hir := latch_resetLatch s.ir l
      refine ⟨⟨_, returnFromInterrupt_eq_next.mpr ⟨hpv, hr, l, hlevel, hsame, rfl⟩, ?car⟩,
        ⟨_, returnFromInterrupt_eq_next.mpr ⟨hpv, hr, l, hlevel, hsame, rfl⟩, ?cir⟩⟩
      case car => exact ⟨rfl, hps, hia, rfl, rfl, rfl, fun _ => rfl, rfl, rfl, rfl, rfl, rfl⟩
      case cir => exact ⟨rfl, hps, hia, hir, rfl, rfl, fun _ => rfl, rfl, rfl, rfl, rfl, rfl⟩
    case changed =>
      have hother := mt Psw.sameSpace_ofWord_iff.mp hspace
      exact ⟨returnFromInterrupt_mapOrBlockChange false hpv hr hlevel hother,
        returnFromInterrupt_mapOrBlockChange true hpv hr hlevel hother⟩
  case inactive =>
    have hlevel := lowestActive_eq_none hnone
    exact ⟨returnFromInterrupt_noActiveLevel false hpv hr hlevel, returnFromInterrupt_noActiveLevel true hpv hr hlevel⟩

end Sys2Proof.Machine
end

section
/-! PROOFS. The request and control instructions: control words read into a register, codes selected from one, actual memory, the
executive request, the multiprocessor request and the halt (spec/48_control.md R442-R476). -/

namespace Sys2Proof.Machine

/-! ### Words of the control rows -/

/-- An op-code byte and any byte after it are a joined word (R101). -/
theorem append_byte_eq_joinWord (o b : Byte) : o ++ b = joinWord o (b.extractLsb' 4 4) (b.extractLsb' 0 4) := by
  rw [joinWord, BitVec.append_assoc]
  exact congrArg (o ++ ·) (byte_of_nibbles b).symm

/-- Nibbles put into a word that has some already are put into its nibbles (R101). -/
theorem joinWord_or_nibbles (o : Byte) (a b r q : Nibble) :
    joinWord o a b ||| (r ++ q).zeroExtend 16 = joinWord o (a ||| r) (b ||| q) := by
  have hnibbles : (a ++ b).zeroExtend 16 ||| (r ++ q).zeroExtend 16 = ((a ||| r) ++ (b ||| q)).zeroExtend 16 := by
    rw [← BitVec.or_append]
    exact BitVec.setWidth_or.symm
  rw [← opCode_or_nibbles o a b, BitVec.or_assoc, hnibbles, opCode_or_nibbles]

/-- The word of a control row: its sub-operation in the S nibble, and R put in beside it (R101). -/
theorem decodeWords_controlRow {i : Instr} {q : Nibble} {r : Reg} (hi : i.WellFormed = true)
    (hcode : encode i = [joinWord 0x0E#8 r q]) :
    decodeWords [joinWord 0x0E#8 0#4 q ||| (r ++ 0#4).zeroExtend 16] = .ok (i, []) := by
  rw [joinWord_or_nibbles, BitVec.zero_or, BitVec.or_zero, ← hcode, ← List.append_nil (encode i)]
  exact decodeWords_encode [] hi

/-! ### Control words -/

/-- A row that reads one register operand first refuses number 0 (R21). -/
theorem exec_registerZero {i : Instr} {s : State} (hi : registerOperands i = [(.single, 0#4)])
    (hpv : isPrivileged i = true → s.psw.pv = true) : exec i s = .refused .registerZero :=
  exec_refusesForbidden i s hpv .single 0#4 (by rw [hi]; rfl)

/-- A control word is read into R, no code is written, and pc goes one word on (R446-R451). -/
theorem loadControl_exec {r : Reg} (v : Word) (s : State) (hr : r ≠ 0#4) :
    ∃ t, loadControl r v s = .next t ∧ WritesRegister s t .single r v ∧ SameStatus s t ∧ t.pc = s.pc + 1 :=
  have hadmits := admits_single.mpr hr
  ⟨_, loadControl_eq_next.mpr ⟨hadmits, rfl⟩, writesRegister_advance v 1 rfl rfl (by simp [SameControl]) hadmits,
    ⟨rfl, rfl⟩, rfl⟩

/-- A word is the word of its number. -/
theorem eq_ofNat_of_toNat_eq {w n : Nat} {x : BitVec w} (h : x.toNat = n) : x = BitVec.ofNat w n := by
  rw [← h, BitVec.ofNat_toNat, BitVec.setWidth_eq]

/-- The four codes as a number (R27, R449). -/
theorem Psw.codesWord_eq_ofNat (p : Psw) :
    p.codesWord = BitVec.ofNat 16 (8 * p.n.toNat + 4 * p.z.toNat + 2 * p.o.toNat + p.c.toNat) := by
  apply eq_ofNat_of_toNat_eq
  simp only [Psw.codesWord, toNat_append_eq_add, BitVec.toNat_ofBool, BitVec.toNat_zero]
  omega

/-- PS as a number (R26, R450). -/
theorem Psw.toWord_eq_ofNat (p : Psw) :
    p.toWord = BitVec.ofNat 16 (p.im.toNat * 2 ^ 13 + p.pv.toNat * 2 ^ 12 + p.grb.toNat * 2 ^ 8 + p.om.toNat * 2 ^ 5
      + p.oh.toNat * 2 ^ 4 + 8 * p.n.toNat + 4 * p.z.toNat + 2 * p.o.toNat + p.c.toNat) := by
  apply eq_ofNat_of_toNat_eq
  rw [Psw.toNat_toWord]
  omega

/-- Settles O54: the five rows differ in the control word they read. -/
theorem controlWordsAreReadIntoR : Obligations.ControlWordsAreReadIntoR := by
  intro r s
  refine ⟨decodeWords_controlRow (q := 5#4) rfl rfl, decodeWords_controlRow (q := 4#4) rfl rfl,
    decodeWords_controlRow (q := 6#4) rfl rfl, decodeWords_controlRow (q := 3#4) rfl rfl,
    decodeWords_controlRow (q := 2#4) rfl rfl, fun hr => ?zero, fun hr => ?loads⟩
  case zero =>
    subst hr
    simp only [List.forall_mem_cons, List.not_mem_nil, false_implies, implies_true, and_true]
    exact ⟨exec_registerZero rfl nofun, exec_registerZero rfl nofun, exec_registerZero rfl nofun,
      exec_registerZero rfl nofun, exec_registerZero rfl nofun⟩
  case loads =>
    rw [← Psw.codesWord_eq_ofNat, ← Psw.toWord_eq_ofNat]
    simp only [List.forall_mem_cons, List.not_mem_nil, false_implies, implies_true, and_true]
    exact ⟨loadControl_exec s.ie s hr, loadControl_exec s.ia s hr, loadControl_exec s.ir s hr,
      loadControl_exec s.psw.codesWord s hr, loadControl_exec s.psw.toWord s hr⟩

/-- SCCC reads R, takes the codes from its last four bits and goes on to the next word (R452). -/
theorem exec_sccc {r : Reg} (s : State) (hr : r ≠ 0#4) : exec (.sccc r) s =
    .next ((s.setCodes ⟨(s.regs.get r).getLsbD 3, (s.regs.get r).getLsbD 2, (s.regs.get r).getLsbD 1,
      (s.regs.get r).getLsbD 0⟩).advance 1) := by
  show selectCodes r s = _
  rw [selectCodes, readReg_admitted s (admits_single.mpr hr), Res.bind_next]
  rfl

/-- Settles O55: LCPR is one more control word, the address of the next word. -/
theorem programRegisterAndCodesMove : Obligations.ProgramRegisterAndCodesMove := by
  refine fun r s => ⟨fun hr => ?zero, fun hr => ⟨loadControl_exec (s.pc + 1) s hr, ?codes⟩⟩
  case zero =>
    subst hr
    exact ⟨exec_registerZero rfl nofun, exec_registerZero rfl nofun⟩
  case codes => exact ⟨_, exec_sccc s hr, ⟨rfl, fun _ => rfl, by simp [SameControl]⟩, rfl, rfl, rfl⟩

/-! ### Actual memory -/

/-- An actual address below 2^16 reaches the word of that number (R87; log 10). -/
theorem actualAddress_of_toNat_eq {pa : BitVec 32} {a : Word} (h : pa.toNat = a.toNat) : actualAddress pa = some a := by
  have ha := a.isLt
  rw [actualAddress, Config.paBits, Nat.mod_eq_of_lt pa.isLt, h, if_pos ha, BitVec.ofNat_toNat, BitVec.setWidth_eq]

/-- An actual address from 2^16 on reaches no word (R87; log 10). -/
theorem actualAddress_eq_none {pa : BitVec 32} (h : 65536 ≤ pa.toNat) : actualAddress pa = none := by
  rw [actualAddress, Config.paBits, Nat.mod_eq_of_lt pa.isLt, if_neg (by omega)]

/-- LDAM once the word is had: the word in R, its sign as N and Z (R470). -/
theorem ldam_exec {r p : Reg} {s : State} {v : Word} (hpv : s.psw.pv = true) (hr : r ≠ 0#4)
    (hp : Width.admits .double p = true) (hread : physRead (s.regs.getMulti .double p) s = .next v) :
    exec (.ldam r p) s = .next (((s.setZN v).setReg .single r v).advance 1) := by
  show privileged s (loadActual r p s) = _
  rw [privileged_of_pv hpv, loadActual, readReg_admitted s (admits_single.mpr hr), Res.bind_next, readReg_admitted s hp,
    Res.bind_next, hread, Res.bind_next]

/-- STAN once the word is stored (R472). -/
theorem stan_exec {r p : Reg} {s t : State} (hpv : s.psw.pv = true) (hr : r ≠ 0#4) (hp : Width.admits .double p = true)
    (hwrite : physWrite (s.regs.getMulti .double p) (s.regs.get r) s = .next t) :
    exec (.stan r p) s = .next (t.advance 1) := by
  show privileged s (storeActual r p s) = _
  rw [privileged_of_pv hpv, storeActual, readReg_admitted s (admits_single.mpr hr), Res.bind_next, readReg_admitted s hp,
    Res.bind_next]
  exact Res.bind_eq_next.mpr ⟨t, hwrite, rfl⟩

/-- Settles O58: the pair's number either is the address of a word or reaches none. -/
theorem actualMemoryRows : Obligations.ActualMemoryRows := by
  intro r p a v s hpv hr hp
  refine ⟨fun haddress hlaunched => ⟨fun hv => ?load, ?store⟩, fun hbeyond => ?beyond⟩
  case load =>
    have hread : physRead (s.regs.getMulti .double p) s = .next v := by
      rw [physRead, actualAddress_of_toNat_eq haddress]
      exact loadWord_of_holdsWord ⟨hlaunched, hv⟩
    exact ⟨_, ldam_exec hpv hr hp hread,
      writesRegister_advance v 1 rfl rfl (by simp [SameControl]) (admits_single.mpr hr), rfl, rfl, rfl⟩
  case store =>
    have hreached := actualAddress_of_toNat_eq haddress
    exact ⟨_, stan_exec hpv hr hp (physWrite_eq_next.mpr ⟨a, hreached, hlaunched, rfl⟩),
      writesWord_advance s a _ 1, ⟨rfl, rfl⟩, rfl⟩
  case beyond =>
    have hnone := actualAddress_eq_none hbeyond
    exact ⟨(ldam_stops hr hp hpv).2 _ (by rw [physRead, hnone]), (stan_stops hr hp hpv).2 _ (by rw [physWrite, hnone])⟩

/-! ### Requests and the halt -/

/-- A running machine answers a request of the executive that waits, before anything else (R604). -/
theorem step_eq_executiveTurn {s : State} {sn : BitVec 8} (hrun : s.run = .running) (hpending : s.pending = some sn) :
    step s = executiveTurn sn s := by
  simp only [step, hrun, hpending]

/-- Settles O18: the request waits in the state after REX, where the next step finds it. -/
theorem executiveRequestThenItsAnswer : Obligations.ExecutiveRequestThenItsAnswer := by
  refine fun sn s => ⟨_, rfl, rfl, fun hrun => ?_⟩
  exact step_eq_executiveTurn (s := { s with pc := s.pc + 1, pending := some sn }) hrun rfl

/-- Settles O57: where the R nibble is 0, the op-code map does not look at the S nibble. -/
theorem multiprocessorRequestIsAnEvent : Obligations.MultiprocessorRequestIsAnEvent :=
  ⟨fun q => decodeWords_of_decodeOp (o := 0x01#8) (r := 0#4) (q := q) rfl rfl, fun _ => rfl⟩

/-- Settles O56: HLT is privileged, and the halted state is looked at before all else. -/
theorem haltStopsTheMachine : Obligations.HaltStopsTheMachine := by
  refine ⟨fun b => ?_, fun s => ⟨privilegedRowsFaultUnprivileged .hlt s rfl, fun hpv => privileged_of_pv hpv _⟩,
    fun s hhalted => ?_⟩
  · rw [append_byte_eq_joinWord]
    exact decodeWords_of_decodeOp rfl rfl
  · simp only [step, hhalted]

end Sys2Proof.Machine
end

section
/-! PROOFS. The interrupt and input/output instructions: one latch set or reset, and a word taken from the environment or sent to it
(spec/49_interrupt_io.md R477-R488). -/

namespace Sys2Proof.Machine

/-! ### Latches -/

/-- One nibble put into a word stands in its S nibble. -/
theorem zeroExtend_nibble (l : Nibble) : l.zeroExtend 16 = (0#4 ++ l).zeroExtend 16 := by
  revert l
  decide

/-- The word of a latch row: its sub-operation in the R nibble, and the level put in beside it (R101). -/
theorem decodeWords_latchRow {i : Instr} {o : Byte} {a l : Nibble} (hi : i.WellFormed = true)
    (hcode : encode i = [joinWord o a l]) : decodeWords [joinWord o a 0#4 ||| l.zeroExtend 16] = .ok (i, []) := by
  rw [zeroExtend_nibble, joinWord_or_nibbles, BitVec.or_zero, BitVec.zero_or, ← hcode, ← List.append_nil (encode i)]
  exact decodeWords_encode [] hi

/-- Settles O17: six rows, one word of latches each, in which one latch is set or reset. -/
theorem setAndResetLatches : Obligations.SetAndResetLatches := by
  refine fun l s => ⟨⟨decodeWords_latchRow (o := 0x26#8) (a := 4#4) rfl rfl,
    decodeWords_latchRow (o := 0x26#8) (a := 0#4) rfl rfl, decodeWords_latchRow (o := 0x26#8) (a := 8#4) rfl rfl,
    decodeWords_latchRow (o := 0x27#8) (a := 4#4) rfl rfl, decodeWords_latchRow (o := 0x27#8) (a := 0#4) rfl rfl,
    decodeWords_latchRow (o := 0x27#8) (a := 8#4) rfl rfl⟩, fun hpv i hi => ?unprivileged, fun hpv => ?privileged⟩
  case unprivileged =>
    have hrows : ∀ i ∈ [Instr.sie l, .sia l, .sir l, .rie l, .ria l, .rir l], isPrivileged i = true := by
      simp only [List.forall_mem_cons, List.not_mem_nil, false_implies, implies_true, and_true]
      exact ⟨rfl, rfl, rfl, rfl, rfl, rfl⟩
    exact privilegedRowsFaultUnprivileged i s (hrows i hi) hpv
  case privileged =>
    refine ⟨setLatch s.ie l, setLatch s.ia l, setLatch s.ir l, resetLatch s.ie l, resetLatch s.ia l, resetLatch s.ir l,
      fun k => ?latches, privileged_of_pv hpv _, privileged_of_pv hpv _, privileged_of_pv hpv _, privileged_of_pv hpv _,
      privileged_of_pv hpv _, privileged_of_pv hpv _⟩
    exact ⟨latch_setLatch s.ie l k, latch_setLatch s.ia l k, latch_setLatch s.ir l k, latch_resetLatch s.ie l k,
      latch_resetLatch s.ia l k, latch_resetLatch s.ir l k⟩

/-! ### Input and output -/

/-- Input Status: the word and the codes of the environment's answer, which is used up (R485; log 14). -/
theorem isi_exec (j : BitVec 2) {r : Reg} (u : Nibble) {s : State} (hpv : s.psw.pv = true) (hr : r ≠ 0#4) :
    ∃ t, exec (.isi j r u) s = .next t ∧ WritesRegister s t .single r (Config.inputStatus s.draws j u).value ∧
      SameMode s.psw t.psw ∧ (⟨t.psw.n, t.psw.z, t.psw.o, t.psw.c⟩ : Codes) = (Config.inputStatus s.draws j u).codes ∧
      (s.psw.oh = true → t.psw.oh = true) ∧ s.draws < t.draws ∧ t.pc = s.pc + 1 := by
  have hadmits := admits_single.mpr hr
  refine ⟨_, privileged_eq_next.mpr ⟨hpv, inputStatus_eq_next.mpr ⟨hadmits, rfl⟩⟩,
    writesRegister_advance _ 1 rfl rfl (by simp [SameControl]) hadmits, ⟨rfl, rfl, rfl, rfl⟩, rfl, fun hoh => ?_, ?_, rfl⟩
  · simp [hoh]
  · simp

/-- Input Data: the word of the environment's answer, which is used up, and the class of its right byte (R486; log 14). -/
theorem idi_exec (j : BitVec 2) {r : Reg} (u : Nibble) {s : State} (hpv : s.psw.pv = true) (hr : r ≠ 0#4) :
    ∃ t, exec (.idi j r u) s = .next t ∧ WritesRegister s t .single r (Config.inputData s.draws j u) ∧
      t.psw = s.psw.withClass (classify ((Config.inputData s.draws j u).extractLsb' 0 8)) ∧ s.draws < t.draws ∧
      t.pc = s.pc + 1 := by
  have hadmits := admits_single.mpr hr
  refine ⟨_, privileged_eq_next.mpr ⟨hpv, inputData_eq_next.mpr ⟨hadmits, rfl⟩⟩,
    writesRegister_advance _ 1 rfl rfl (by simp [SameControl]) hadmits, rfl, ?_, rfl⟩
  simp

/-- Settles O59. Register 0 refuses before anything is asked of the environment or sent to it. -/
theorem registerInputAndOutput : Obligations.RegisterInputAndOutput := by
  intro j r u s hpv
  refine ⟨fun hr i hi => ?zero, fun hr => ⟨isi_exec j u hpv hr, idi_exec j u hpv hr, ?command, ?data⟩⟩
  case zero =>
    subst hr
    have hrows : ∀ i ∈ [Instr.isi j 0#4 u, .idi j 0#4 u, .oci j 0#4 u, .odi j 0#4 u],
        registerOperands i = [(.single, 0#4)] := by
      simp only [List.forall_mem_cons, List.not_mem_nil, false_implies, implies_true, and_true]
      exact ⟨rfl, rfl, rfl, rfl⟩
    exact exec_registerZero (hrows i hi) fun _ => hpv
  case command => exact privileged_eq_next.mpr ⟨hpv, outputWord_eq_next.mpr ⟨admits_single.mpr hr, rfl⟩⟩
  case data => exact privileged_eq_next.mpr ⟨hpv, outputWord_eq_next.mpr ⟨admits_single.mpr hr, rfl⟩⟩

end Sys2Proof.Machine
end
